-- ==== Sys2Proof/Word.lean ====
section
/-! DEFINITION. The word types of REF8 (00_scope.md R9, R12): u8 data, u16 addresses, and the numbers of the registers
and pairs (10_state.md R32, R33). -/

namespace Sys2Proof

/-- u8: a register, a data byte, an opcode byte (00_scope.md R12). -/
abbrev Byte := BitVec 8

/-- u16: PC, SP, a pair, a bus address (00_scope.md R12). -/
abbrev Addr := BitVec 16

/-- The number of a general register R0 .. R7 (10_state.md R33). -/
abbrev RegIdx := Fin 8

/-- The number of a register pair P0 .. P3 (10_state.md R32). -/
abbrev PairIdx := Fin 4

end Sys2Proof
end

