-- ==== Sys2Proof/Syntax.lean ====
section
/-! DEFINITION. The instructions of REF8: one constructor for each row of the opcode map (30_encoding.md R110), in its
order. Operands are the values of the encoding's fields: register r and d, pair p, imm8, rel8, imm16 (30_encoding.md
R102 to R106). -/

namespace Sys2Proof

/-- A REF8 instruction, one constructor per row of 30_encoding.md R110. -/
inductive Instr where
  /-- 43_system.md R260: no operation. -/
  | nop
  /-- 43_system.md R261: stop fetching until the interrupt input is asserted. -/
  | halt
  /-- 43_system.md R262: disable interrupts. -/
  | di
  /-- 43_system.md R263: enable interrupts after one more instruction. -/
  | ei
  /-- 43_system.md R264: software interrupt. -/
  | swi
  /-- 40_alu.md R164: clear the carry. -/
  | clc
  /-- 40_alu.md R165: set the carry. -/
  | sec
  /-- 40_alu.md R166: complement the carry. -/
  | cmc
  /-- 41_data_movement.md R195: LDI Rr, #imm8. -/
  | ldi (r : RegIdx) (imm : Byte)
  /-- 41_data_movement.md R196: LD Rr, [abs16]. -/
  | ld (r : RegIdx) (abs : Addr)
  /-- 41_data_movement.md R197: ST [abs16], Rr. -/
  | st (r : RegIdx) (abs : Addr)
  /-- 41_data_movement.md R198: LDX Rr, [P3]. -/
  | ldx (r : RegIdx)
  /-- 41_data_movement.md R199: STX [P3], Rr. -/
  | stx (r : RegIdx)
  /-- 41_data_movement.md R200: LDW Pp, #imm16. -/
  | ldw (p : PairIdx) (imm : Addr)
  /-- 40_alu.md R162: INCW Pp. -/
  | incw (p : PairIdx)
  /-- 40_alu.md R163: DECW Pp. -/
  | decw (p : PairIdx)
  /-- 41_data_movement.md R201: LDSP #imm16. -/
  | ldsp (imm : Addr)
  /-- 41_data_movement.md R202: SP <- P3. -/
  | movsp
  /-- 41_data_movement.md R203: P3 <- SP. -/
  | getsp
  /-- 43_system.md R266: the reserved opcode 0x3F. -/
  | illegal3F
  /-- 41_data_movement.md R194: MOV Rd, Rr. -/
  | mov (d r : RegIdx)
  /-- 40_alu.md R134: ADD Rr. -/
  | add (r : RegIdx)
  /-- 40_alu.md R135: ADC Rr. -/
  | adc (r : RegIdx)
  /-- 40_alu.md R136: SUB Rr. -/
  | sub (r : RegIdx)
  /-- 40_alu.md R137: SBC Rr. -/
  | sbc (r : RegIdx)
  /-- 40_alu.md R138: AND Rr. -/
  | and (r : RegIdx)
  /-- 40_alu.md R139: XOR Rr. -/
  | xor (r : RegIdx)
  /-- 40_alu.md R140: OR Rr. -/
  | or (r : RegIdx)
  /-- 40_alu.md R141: CMP Rr. -/
  | cmp (r : RegIdx)
  /-- 40_alu.md R142: ADDI #imm8. -/
  | addi (imm : Byte)
  /-- 40_alu.md R143: ADCI #imm8. -/
  | adci (imm : Byte)
  /-- 40_alu.md R144: SUBI #imm8. -/
  | subi (imm : Byte)
  /-- 40_alu.md R145: SBCI #imm8. -/
  | sbci (imm : Byte)
  /-- 40_alu.md R146: ANDI #imm8. -/
  | andi (imm : Byte)
  /-- 40_alu.md R147: XORI #imm8. -/
  | xori (imm : Byte)
  /-- 40_alu.md R148: ORI #imm8. -/
  | ori (imm : Byte)
  /-- 40_alu.md R149: CMPI #imm8. -/
  | cmpi (imm : Byte)
  /-- 42_control_transfer.md R233: branch if Z = 1. -/
  | beq (rel : Byte)
  /-- 42_control_transfer.md R234: branch if Z = 0. -/
  | bne (rel : Byte)
  /-- 42_control_transfer.md R235: branch if C = 1. -/
  | bcs (rel : Byte)
  /-- 42_control_transfer.md R236: branch if C = 0. -/
  | bcc (rel : Byte)
  /-- 42_control_transfer.md R237: branch if S = 1. -/
  | bmi (rel : Byte)
  /-- 42_control_transfer.md R238: branch if S = 0. -/
  | bpl (rel : Byte)
  /-- 42_control_transfer.md R239: branch if V = 1. -/
  | bvs (rel : Byte)
  /-- 42_control_transfer.md R240: branch if V = 0. -/
  | bvc (rel : Byte)
  /-- 40_alu.md R150: INC Rr. -/
  | inc (r : RegIdx)
  /-- 40_alu.md R151: DEC Rr. -/
  | dec (r : RegIdx)
  /-- 40_alu.md R152: logical shift of A left by one. -/
  | shl
  /-- 40_alu.md R153: logical shift of A right by one. -/
  | shr
  /-- 40_alu.md R154: arithmetic shift of A right by one. -/
  | sar
  /-- 40_alu.md R155: rotate A left through the carry. -/
  | rcl
  /-- 40_alu.md R156: rotate A right through the carry. -/
  | rcr
  /-- 40_alu.md R157: one's complement of A. -/
  | not
  /-- 40_alu.md R158: two's complement negation of A. -/
  | neg
  /-- 40_alu.md R159: exchange the nibbles of A. -/
  | swap
  /-- 41_data_movement.md R204: PUSH Pp. -/
  | push (p : PairIdx)
  /-- 41_data_movement.md R205: POP Pp. -/
  | pop (p : PairIdx)
  /-- 42_control_transfer.md R241: JMP abs16. -/
  | jmp (abs : Addr)
  /-- 42_control_transfer.md R243: CALL abs16. -/
  | call (abs : Addr)
  /-- 42_control_transfer.md R245: return from a subroutine. -/
  | ret
  /-- 43_system.md R265: return from an interrupt or SWI handler. -/
  | reti
  /-- 42_control_transfer.md R232: branch always. -/
  | bra (rel : Byte)
  /-- 42_control_transfer.md R242: jump to the address in P3. -/
  | jmpi
  /-- 42_control_transfer.md R244: call the subroutine at the address in P3. -/
  | calli
  /-- 41_data_movement.md R206: push the flags. -/
  | pushf
  /-- 41_data_movement.md R207: pop the flags. -/
  | popf
  /-- 40_alu.md R160: unsigned multiply, P0 <- R0 * R1. -/
  | mul
  /-- 40_alu.md R161: unsigned divide of R0 by R1. -/
  | div
  /-- 43_system.md R266: the reserved opcode 0xFB. -/
  | illegalFB
  /-- 43_system.md R266: the reserved opcodes 0xFC .. 0xFF; op is the opcode byte itself (log 12). -/
  | illegalFC (op : Byte)
  deriving DecidableEq, Repr

end Sys2Proof
end

