-- ==== Sys2Proof/WellFormed.lean ====
section
/-! DEFINITION. Which instruction terms stand for an encoding. Register and pair numbers are bounded by their types
(30_encoding.md R103: no field value is reserved) and every operand byte is legal (30_encoding.md R115), so one check is
left: the row 0xFC to 0xFF carries its opcode byte, whose upper six bits the row fixes (30_encoding.md R110). -/

namespace Sys2Proof

/-- The opcode byte is one of the reserved row `111111xx` (30_encoding.md R110). -/
def isReservedHigh (op : Byte) : Bool := op.extractLsb' 2 6 == 0b111111#6

/-- The instruction is one that an encoding of 30_encoding.md R110 stands for. -/
def Instr.wellFormed : Instr → Bool
  | .illegalFC op => isReservedHigh op
  | _ => true

end Sys2Proof
end

