-- ==== Sys2Proof/Decode.lean ====
section
/-! DEFINITION. The decoder of REF8, total on every opcode byte (30_encoding.md R100 to R113), the list decoder that
refuses a truncated instruction by name, and after them the encoder, written from the same opcode map. -/

namespace Sys2Proof

/-! ## Fields of the opcode byte (30_encoding.md R102) -/

/-- Field r (also o and c): op[2:0]. -/
def fieldR (op : Byte) : RegIdx := ⟨op.toNat % 8, Nat.mod_lt _ (by decide)⟩

/-- Field d: op[5:3], the destination of MOV; the operation o of group 10; the row within groups 00 and 11. -/
def fieldD (op : Byte) : RegIdx := ⟨op.toNat / 8 % 8, Nat.mod_lt _ (by decide)⟩

/-- Field p: op[1:0]. -/
def fieldP (op : Byte) : PairIdx := ⟨op.toNat % 4, Nat.mod_lt _ (by decide)⟩

/-- Field g: op[7:6], the group. -/
def fieldG (op : Byte) : Nat := op.toNat / 64

/-- imm16 = b2 ++ b1: the low byte comes first in memory (30_encoding.md R106). -/
def imm16 (b1 b2 : Byte) : Addr := b2 ++ b1

/-! ## The opcode map by group (30_encoding.md R110) -/

/-- 0x00 to 0x07. -/
def decodeMisc (op : Byte) : Instr :=
  match (fieldR op).val with
  | 0 => .nop
  | 1 => .halt
  | 2 => .di
  | 3 => .ei
  | 4 => .swi
  | 5 => .clc
  | 6 => .sec
  | _ => .cmc

/-- 0x30 to 0x37: LDW Pp, INCW Pp. -/
def decodePairs (op b1 b2 : Byte) : Instr :=
  match (fieldR op).val / 4 with
  | 0 => .ldw (fieldP op) (imm16 b1 b2)
  | _ => .incw (fieldP op)

/-- 0x38 to 0x3F: DECW Pp, the stack-pointer instructions, the reserved 0x3F. -/
def decodePointer (op b1 b2 : Byte) : Instr :=
  match (fieldR op).val with
  | 4 => .ldsp (imm16 b1 b2)
  | 5 => .movsp
  | 6 => .getsp
  | 7 => .illegal3F
  | _ => .decw (fieldP op)

/-- Group 00: 0x00 to 0x3F. -/
def decodeGroup0 (op b1 b2 : Byte) : Instr :=
  match (fieldD op).val with
  | 0 => decodeMisc op
  | 1 => .ldi (fieldR op) b1
  | 2 => .ld (fieldR op) (imm16 b1 b2)
  | 3 => .st (fieldR op) (imm16 b1 b2)
  | 4 => .ldx (fieldR op)
  | 5 => .stx (fieldR op)
  | 6 => decodePairs op b1 b2
  | _ => decodePointer op b1 b2

/-- Group 10: 0x80 to 0xBF, the ALU register forms (30_encoding.md R107). -/
def decodeGroup2 (op : Byte) : Instr :=
  match (fieldD op).val with
  | 0 => .add (fieldR op)
  | 1 => .adc (fieldR op)
  | 2 => .sub (fieldR op)
  | 3 => .sbc (fieldR op)
  | 4 => .and (fieldR op)
  | 5 => .xor (fieldR op)
  | 6 => .or (fieldR op)
  | _ => .cmp (fieldR op)

/-- 0xC0 to 0xC7: the ALU immediate forms (30_encoding.md R107). -/
def decodeAluImm (op b1 : Byte) : Instr :=
  match (fieldR op).val with
  | 0 => .addi b1
  | 1 => .adci b1
  | 2 => .subi b1
  | 3 => .sbci b1
  | 4 => .andi b1
  | 5 => .xori b1
  | 6 => .ori b1
  | _ => .cmpi b1

/-- 0xC8 to 0xCF: the conditional branches (30_encoding.md R108). -/
def decodeBranch (op b1 : Byte) : Instr :=
  match (fieldR op).val with
  | 0 => .beq b1
  | 1 => .bne b1
  | 2 => .bcs b1
  | 3 => .bcc b1
  | 4 => .bmi b1
  | 5 => .bpl b1
  | 6 => .bvs b1
  | _ => .bvc b1

/-- 0xE0 to 0xE7: the unary operations on A (30_encoding.md R109). -/
def decodeUnary (op : Byte) : Instr :=
  match (fieldR op).val with
  | 0 => .shl
  | 1 => .shr
  | 2 => .sar
  | 3 => .rcl
  | 4 => .rcr
  | 5 => .not
  | 6 => .neg
  | _ => .swap

/-- 0xE8 to 0xEF: PUSH Pp, POP Pp. -/
def decodeStack (op : Byte) : Instr :=
  match (fieldR op).val / 4 with
  | 0 => .push (fieldP op)
  | _ => .pop (fieldP op)

/-- 0xF0 to 0xF7: jumps, calls, returns, BRA, PUSHF. -/
def decodeTransfer (op b1 b2 : Byte) : Instr :=
  match (fieldR op).val with
  | 0 => .jmp (imm16 b1 b2)
  | 1 => .call (imm16 b1 b2)
  | 2 => .ret
  | 3 => .reti
  | 4 => .bra b1
  | 5 => .jmpi
  | 6 => .calli
  | _ => .pushf

/-- 0xF8 to 0xFF: POPF, MUL, DIV and the reserved opcodes. -/
def decodeLast (op : Byte) : Instr :=
  match (fieldR op).val with
  | 0 => .popf
  | 1 => .mul
  | 2 => .div
  | 3 => .illegalFB
  | _ => .illegalFC op

/-- Group 11: 0xC0 to 0xFF. -/
def decodeGroup3 (op b1 b2 : Byte) : Instr :=
  match (fieldD op).val with
  | 0 => decodeAluImm op b1
  | 1 => decodeBranch op b1
  | 2 => .inc (fieldR op)
  | 3 => .dec (fieldR op)
  | 4 => decodeUnary op
  | 5 => decodeStack op
  | 6 => decodeTransfer op b1 b2
  | _ => decodeLast op

/-- The decoder: the one entry of the opcode map that the opcode byte names, with its operand bytes (30_encoding.md R100,
R113). It never fails. A byte the entry's format does not have is not looked at. -/
def decodeOp (op b1 b2 : Byte) : Instr :=
  match fieldG op with
  | 0 => decodeGroup0 op b1 b2
  | 1 => .mov (fieldD op) (fieldR op)
  | 2 => decodeGroup2 op
  | _ => decodeGroup3 op b1 b2

/-- The length of an instruction from its opcode byte alone (30_encoding.md R112). -/
def instrLen (op : Byte) : Nat :=
  let o := op.toNat
  if (0x08 ≤ o ∧ o ≤ 0x0F) ∨ (0xC0 ≤ o ∧ o ≤ 0xCF) ∨ o = 0xF4 then 2
  else if (0x10 ≤ o ∧ o ≤ 0x1F) ∨ (0x30 ≤ o ∧ o ≤ 0x33) ∨ o = 0x3C ∨ o = 0xF0 ∨ o = 0xF1 then 3
  else 1

/-! ## Decoding a list of bytes -/

/-- Why a list of bytes is not read as an instruction. REF8's decoder refuses no byte (30_encoding.md R113), so a list
that ends too early is the only reason. -/
inductive DecodeError where
  /-- The list holds no byte at all. -/
  | noBytes
  /-- The list ends before the operand bytes that the opcode byte `op` announces (30_encoding.md R112). -/
  | truncated (op : Byte)
  deriving DecidableEq, Repr

/-- The instruction at the front of a list of bytes and the bytes after it, or why there is none. -/
def decode (bytes : List Byte) : Except DecodeError (Instr × List Byte) :=
  match bytes with
  | [] => .error .noBytes
  | op :: rest =>
    match instrLen op, rest with
    | 1, rest => .ok (decodeOp op 0 0, rest)
    | 2, b1 :: rest => .ok (decodeOp op b1 0, rest)
    | 3, b1 :: b2 :: rest => .ok (decodeOp op b1 b2, rest)
    | _, _ => .error (.truncated op)

/-- Byte k of an instruction written as one number whose least significant byte is the first in memory. -/
def wordByte (w k : Nat) : Byte := BitVec.ofNat 8 (w / 2 ^ (8 * k))

/-- The longest instruction, three bytes (30_encoding.md R100), of the number `w` cut to `nbits` bits. -/
def wordBytes (nbits w : Nat) : List Byte :=
  let v := w % 2 ^ nbits
  [wordByte v 0, wordByte v 1, wordByte v 2]

/-- The instruction the decoder reads from the bits `w` of an instruction of the opcode table. -/
def decodeTableWord (nbits w : Nat) : Option Instr :=
  match decode (wordBytes nbits w) with
  | .ok (i, _) => some i
  | .error _ => none

/-! ## The encoder, from the same map -/

/-- The opcode byte of an instruction (30_encoding.md R110). -/
def opcodeOf : Instr → Byte
  | .nop => 0x00
  | .halt => 0x01
  | .di => 0x02
  | .ei => 0x03
  | .swi => 0x04
  | .clc => 0x05
  | .sec => 0x06
  | .cmc => 0x07
  | .ldi r _ => BitVec.ofNat 8 (0x08 + r.val)
  | .ld r _ => BitVec.ofNat 8 (0x10 + r.val)
  | .st r _ => BitVec.ofNat 8 (0x18 + r.val)
  | .ldx r => BitVec.ofNat 8 (0x20 + r.val)
  | .stx r => BitVec.ofNat 8 (0x28 + r.val)
  | .ldw p _ => BitVec.ofNat 8 (0x30 + p.val)
  | .incw p => BitVec.ofNat 8 (0x34 + p.val)
  | .decw p => BitVec.ofNat 8 (0x38 + p.val)
  | .ldsp _ => 0x3C
  | .movsp => 0x3D
  | .getsp => 0x3E
  | .illegal3F => 0x3F
  | .mov d r => BitVec.ofNat 8 (0x40 + 8 * d.val + r.val)
  | .add r => BitVec.ofNat 8 (0x80 + r.val)
  | .adc r => BitVec.ofNat 8 (0x88 + r.val)
  | .sub r => BitVec.ofNat 8 (0x90 + r.val)
  | .sbc r => BitVec.ofNat 8 (0x98 + r.val)
  | .and r => BitVec.ofNat 8 (0xA0 + r.val)
  | .xor r => BitVec.ofNat 8 (0xA8 + r.val)
  | .or r => BitVec.ofNat 8 (0xB0 + r.val)
  | .cmp r => BitVec.ofNat 8 (0xB8 + r.val)
  | .addi _ => 0xC0
  | .adci _ => 0xC1
  | .subi _ => 0xC2
  | .sbci _ => 0xC3
  | .andi _ => 0xC4
  | .xori _ => 0xC5
  | .ori _ => 0xC6
  | .cmpi _ => 0xC7
  | .beq _ => 0xC8
  | .bne _ => 0xC9
  | .bcs _ => 0xCA
  | .bcc _ => 0xCB
  | .bmi _ => 0xCC
  | .bpl _ => 0xCD
  | .bvs _ => 0xCE
  | .bvc _ => 0xCF
  | .inc r => BitVec.ofNat 8 (0xD0 + r.val)
  | .dec r => BitVec.ofNat 8 (0xD8 + r.val)
  | .shl => 0xE0
  | .shr => 0xE1
  | .sar => 0xE2
  | .rcl => 0xE3
  | .rcr => 0xE4
  | .not => 0xE5
  | .neg => 0xE6
  | .swap => 0xE7
  | .push p => BitVec.ofNat 8 (0xE8 + p.val)
  | .pop p => BitVec.ofNat 8 (0xEC + p.val)
  | .jmp _ => 0xF0
  | .call _ => 0xF1
  | .ret => 0xF2
  | .reti => 0xF3
  | .bra _ => 0xF4
  | .jmpi => 0xF5
  | .calli => 0xF6
  | .pushf => 0xF7
  | .popf => 0xF8
  | .mul => 0xF9
  | .div => 0xFA
  | .illegalFB => 0xFB
  | .illegalFC op => op

/-- The two bytes of a 16-bit operand, low byte first (30_encoding.md R106). -/
def bytes16 (v : Addr) : List Byte := [v.extractLsb' 0 8, v.extractLsb' 8 8]

/-- The operand bytes of an instruction after its opcode byte (30_encoding.md R101). -/
def operandBytes : Instr → List Byte
  | .nop => []
  | .halt => []
  | .di => []
  | .ei => []
  | .swi => []
  | .clc => []
  | .sec => []
  | .cmc => []
  | .ldi _ imm => [imm]
  | .ld _ abs => bytes16 abs
  | .st _ abs => bytes16 abs
  | .ldx _ => []
  | .stx _ => []
  | .ldw _ imm => bytes16 imm
  | .incw _ => []
  | .decw _ => []
  | .ldsp imm => bytes16 imm
  | .movsp => []
  | .getsp => []
  | .illegal3F => []
  | .mov _ _ => []
  | .add _ => []
  | .adc _ => []
  | .sub _ => []
  | .sbc _ => []
  | .and _ => []
  | .xor _ => []
  | .or _ => []
  | .cmp _ => []
  | .addi imm => [imm]
  | .adci imm => [imm]
  | .subi imm => [imm]
  | .sbci imm => [imm]
  | .andi imm => [imm]
  | .xori imm => [imm]
  | .ori imm => [imm]
  | .cmpi imm => [imm]
  | .beq rel => [rel]
  | .bne rel => [rel]
  | .bcs rel => [rel]
  | .bcc rel => [rel]
  | .bmi rel => [rel]
  | .bpl rel => [rel]
  | .bvs rel => [rel]
  | .bvc rel => [rel]
  | .inc _ => []
  | .dec _ => []
  | .shl => []
  | .shr => []
  | .sar => []
  | .rcl => []
  | .rcr => []
  | .not => []
  | .neg => []
  | .swap => []
  | .push _ => []
  | .pop _ => []
  | .jmp abs => bytes16 abs
  | .call abs => bytes16 abs
  | .ret => []
  | .reti => []
  | .bra rel => [rel]
  | .jmpi => []
  | .calli => []
  | .pushf => []
  | .popf => []
  | .mul => []
  | .div => []
  | .illegalFB => []
  | .illegalFC _ => []

/-- The bytes of an instruction, in memory order. -/
def encode (i : Instr) : List Byte := opcodeOf i :: operandBytes i

/-! ## The opcode map as data -/

/-- One row of the opcode map: the fixed bits of the opcode byte and the length (30_encoding.md R101, R110). -/
structure OpRow where
  /-- The opcode byte with every field bit 0. -/
  base : Byte
  /-- A 1 in every fixed bit of the opcode byte. -/
  mask : Byte
  /-- The length in bytes of the row's format. -/
  length : Nat
  deriving DecidableEq, Repr

/-- The row holds the opcode byte. -/
def OpRow.has (row : OpRow) (op : Byte) : Bool := op &&& row.mask == row.base

/-- Rows 0 to 13 of the opcode map, in its order. -/
def opcodeRows0 : List OpRow :=
  [⟨0x00, 0xFF, 1⟩, ⟨0x01, 0xFF, 1⟩, ⟨0x02, 0xFF, 1⟩, ⟨0x03, 0xFF, 1⟩,
   ⟨0x04, 0xFF, 1⟩, ⟨0x05, 0xFF, 1⟩, ⟨0x06, 0xFF, 1⟩, ⟨0x07, 0xFF, 1⟩,
   ⟨0x08, 0xF8, 2⟩, ⟨0x10, 0xF8, 3⟩, ⟨0x18, 0xF8, 3⟩, ⟨0x20, 0xF8, 1⟩,
   ⟨0x28, 0xF8, 1⟩, ⟨0x30, 0xFC, 3⟩]

/-- Rows 14 to 27 of the opcode map, in its order. -/
def opcodeRows1 : List OpRow :=
  [⟨0x34, 0xFC, 1⟩, ⟨0x38, 0xFC, 1⟩, ⟨0x3C, 0xFF, 3⟩, ⟨0x3D, 0xFF, 1⟩,
   ⟨0x3E, 0xFF, 1⟩, ⟨0x3F, 0xFF, 1⟩, ⟨0x40, 0xC0, 1⟩, ⟨0x80, 0xF8, 1⟩,
   ⟨0x88, 0xF8, 1⟩, ⟨0x90, 0xF8, 1⟩, ⟨0x98, 0xF8, 1⟩, ⟨0xA0, 0xF8, 1⟩,
   ⟨0xA8, 0xF8, 1⟩, ⟨0xB0, 0xF8, 1⟩]

/-- Rows 28 to 41 of the opcode map, in its order. -/
def opcodeRows2 : List OpRow :=
  [⟨0xB8, 0xF8, 1⟩, ⟨0xC0, 0xFF, 2⟩, ⟨0xC1, 0xFF, 2⟩, ⟨0xC2, 0xFF, 2⟩,
   ⟨0xC3, 0xFF, 2⟩, ⟨0xC4, 0xFF, 2⟩, ⟨0xC5, 0xFF, 2⟩, ⟨0xC6, 0xFF, 2⟩,
   ⟨0xC7, 0xFF, 2⟩, ⟨0xC8, 0xFF, 2⟩, ⟨0xC9, 0xFF, 2⟩, ⟨0xCA, 0xFF, 2⟩,
   ⟨0xCB, 0xFF, 2⟩, ⟨0xCC, 0xFF, 2⟩]

/-- Rows 42 to 55 of the opcode map, in its order. -/
def opcodeRows3 : List OpRow :=
  [⟨0xCD, 0xFF, 2⟩, ⟨0xCE, 0xFF, 2⟩, ⟨0xCF, 0xFF, 2⟩, ⟨0xD0, 0xF8, 1⟩,
   ⟨0xD8, 0xF8, 1⟩, ⟨0xE0, 0xFF, 1⟩, ⟨0xE1, 0xFF, 1⟩, ⟨0xE2, 0xFF, 1⟩,
   ⟨0xE3, 0xFF, 1⟩, ⟨0xE4, 0xFF, 1⟩, ⟨0xE5, 0xFF, 1⟩, ⟨0xE6, 0xFF, 1⟩,
   ⟨0xE7, 0xFF, 1⟩, ⟨0xE8, 0xFC, 1⟩]

/-- Rows 56 to 69 of the opcode map, in its order. -/
def opcodeRows4 : List OpRow :=
  [⟨0xEC, 0xFC, 1⟩, ⟨0xF0, 0xFF, 3⟩, ⟨0xF1, 0xFF, 3⟩, ⟨0xF2, 0xFF, 1⟩,
   ⟨0xF3, 0xFF, 1⟩, ⟨0xF4, 0xFF, 2⟩, ⟨0xF5, 0xFF, 1⟩, ⟨0xF6, 0xFF, 1⟩,
   ⟨0xF7, 0xFF, 1⟩, ⟨0xF8, 0xFF, 1⟩, ⟨0xF9, 0xFF, 1⟩, ⟨0xFA, 0xFF, 1⟩,
   ⟨0xFB, 0xFF, 1⟩, ⟨0xFC, 0xFC, 1⟩]

/-- The opcode map, one row per opcode range (30_encoding.md R110). -/
def opcodeMap : List OpRow :=
  opcodeRows0 ++ opcodeRows1 ++ opcodeRows2 ++ opcodeRows3 ++ opcodeRows4

/-- The place of an instruction's row in the opcode map. -/
def Instr.row : Instr → Nat
  | .nop => 0
  | .halt => 1
  | .di => 2
  | .ei => 3
  | .swi => 4
  | .clc => 5
  | .sec => 6
  | .cmc => 7
  | .ldi _ _ => 8
  | .ld _ _ => 9
  | .st _ _ => 10
  | .ldx _ => 11
  | .stx _ => 12
  | .ldw _ _ => 13
  | .incw _ => 14
  | .decw _ => 15
  | .ldsp _ => 16
  | .movsp => 17
  | .getsp => 18
  | .illegal3F => 19
  | .mov _ _ => 20
  | .add _ => 21
  | .adc _ => 22
  | .sub _ => 23
  | .sbc _ => 24
  | .and _ => 25
  | .xor _ => 26
  | .or _ => 27
  | .cmp _ => 28
  | .addi _ => 29
  | .adci _ => 30
  | .subi _ => 31
  | .sbci _ => 32
  | .andi _ => 33
  | .xori _ => 34
  | .ori _ => 35
  | .cmpi _ => 36
  | .beq _ => 37
  | .bne _ => 38
  | .bcs _ => 39
  | .bcc _ => 40
  | .bmi _ => 41
  | .bpl _ => 42
  | .bvs _ => 43
  | .bvc _ => 44
  | .inc _ => 45
  | .dec _ => 46
  | .shl => 47
  | .shr => 48
  | .sar => 49
  | .rcl => 50
  | .rcr => 51
  | .not => 52
  | .neg => 53
  | .swap => 54
  | .push _ => 55
  | .pop _ => 56
  | .jmp _ => 57
  | .call _ => 58
  | .ret => 59
  | .reti => 60
  | .bra _ => 61
  | .jmpi => 62
  | .calli => 63
  | .pushf => 64
  | .popf => 65
  | .mul => 66
  | .div => 67
  | .illegalFB => 68
  | .illegalFC _ => 69

end Sys2Proof
end

