-- ==== Sys2Proof/Config.lean ====
section
/-! DEFINITION. What the spec leaves to the platform: the answers of the devices behind MMIO, the changes an access makes
to their state, and the open-bus value (20_memory.md R71, R74; 93_implementation_defined.md S2, S6). Each is an opaque
constant with no body, so that a statement holds whatever the platform's bus answers. The state of all devices is held
in the bus as one natural number that only these constants interpret (log 3). -/

namespace Sys2Proof

/-- The byte an MMIO read at an address answers, given the device state: FREE (log 3). -/
opaque Config.mmioRead : Nat → Addr → Byte

/-- The device state after an MMIO read at an address ("latch clearing", 20_memory.md R71): FREE (log 3). -/
opaque Config.mmioReadState : Nat → Addr → Nat

/-- The device state after an MMIO write of a byte at an address: FREE (log 3). -/
opaque Config.mmioWriteState : Nat → Addr → Byte → Nat

/-- The open-bus value of an unmapped read, given the device state, the last byte read and the address
("system-defined, typically last value or 0xFF", 20_memory.md R74): FREE (log 4). -/
opaque Config.openBus : Nat → Byte → Addr → Byte

end Sys2Proof
end

