-- ==== Sys2Proof/Machine/State.lean ====
section
/-! DEFINITION. The state of the machine: the REF8 CPU record (10_state.md R31), the bus state the step threads through
(20_memory.md R71, R76) and the observations of the step record (60_exceptions.md R307), as plain data; the reasons a
step can stop; and the state after reset (10_state.md R50). -/

namespace Sys2Proof.Machine

/-! ## The CPU -/

/-- The REF8 CPU state, exactly the record of 10_state.md R31. -/
structure Cpu where
  /-- R0 .. R7, general registers (10_state.md R33). -/
  regs : Vector Byte 8
  /-- Stack pointer: the address of the byte pushed last (10_state.md R35). -/
  sp : Addr
  /-- Program counter (10_state.md R34). -/
  pc : Addr
  /-- Flags: bit 0 C, bit 1 V, bit 2 Z, bit 3 S, bits 7..4 read as 0 (10_state.md R36, R37). -/
  f : Byte
  /-- Interrupt enable (10_state.md R42). -/
  ie : Bool
  /-- EI shadow (10_state.md R43). -/
  ies : Bool
  /-- Halt latch (10_state.md R44). -/
  halted : Bool
  /-- Interrupt input latch (10_state.md R45). -/
  irq : Bool
  /-- Cycle counter (10_state.md R46). -/
  cyc : BitVec 64
  /-- Tag of the selected variant: 0x00 none, 0x01 REF8, 0x02 to 0xFF a console variant (10_state.md R47). -/
  variant : Byte
  deriving DecidableEq, Repr

/-! ## The bus -/

/-- What answers at the addresses of a region, as the CPU sees it (20_memory.md R74 to R76). -/
inductive RegionKind where
  /-- Reads give the byte last written (20_memory.md R75). -/
  | ram
  /-- Reads give the byte; writes have no effect (20_memory.md R75). -/
  | rom
  /-- A device: reads and writes may change its state (20_memory.md R71). -/
  | mmio
  /-- Nothing: reads give the open-bus value, writes are no-ops (20_memory.md R74). -/
  | unmapped
  deriving DecidableEq, Repr

/-- A region of the address space: its first and last address and its kind (20_memory.md R76). -/
structure Region where
  /-- The first address. -/
  first : Addr
  /-- The last address. -/
  last : Addr
  /-- What answers there. -/
  kind : RegionKind
  deriving DecidableEq, Repr

/-- Memory: the bytes of the RAM and ROM regions that differ from what an unlisted address reads as, by rising address. -/
abbrev Memory := List Host.Cell

/-- The BusState of 20_memory.md R71 as plain data (log 1). The CPU does not own it. -/
structure Bus where
  /-- The bytes behind the RAM and ROM regions. -/
  mem : Memory
  /-- The regions, the one that wins first (20_memory.md R76: a later-registered region shadows an earlier one). -/
  regions : List Region
  /-- The state of everything behind MMIO, encoded as a number only Config interprets (log 3). -/
  dev : Nat
  /-- The byte the last read gave, which the open-bus value may depend on (20_memory.md R74; log 4). -/
  last : Byte
  deriving DecidableEq, Repr

/-- The reference bus of 20_memory.md R92: 65,536 bytes of RAM, no MMIO and no unmapped address, every byte 0x00
(93_implementation_defined.md S14; log 2). -/
def Bus.reference : Bus :=
  { mem := [], regions := [{ first := 0x0000, last := 0xFFFF, kind := .ram }], dev := 0, last := 0x00 }

/-! ## The observations of a step (60_exceptions.md R307) -/

/-- One bus access: its address and the byte read or written (20_memory.md R91). -/
inductive BusEvent where
  /-- A read at `a` that gave `v`. -/
  | read (a : Addr) (v : Byte)
  /-- A write of `v` at `a`. -/
  | write (a : Addr) (v : Byte)
  deriving DecidableEq, Repr

/-- What a step did (60_exceptions.md R290, R307). -/
inductive StepKind where
  /-- It executed the instruction whose opcode byte is `op`. -/
  | exec (op : Byte)
  /-- It acknowledged an interrupt. -/
  | irqAck
  /-- It left the halted state without an acknowledge. -/
  | wake
  /-- It spent one halted cycle. -/
  | idle
  deriving DecidableEq, Repr

/-- The fields of the step record that are observations (60_exceptions.md R307), of the last step; the model's own
fields (log 5). -/
structure StepObs where
  /-- What the step did; none before the first step. -/
  kind : Option StepKind
  /-- The cycles the step returned. -/
  cycles : Nat
  /-- The bus accesses of the step, in issue order (20_memory.md R91). -/
  trace : List BusEvent
  deriving DecidableEq, Repr

/-- Nothing observed: before the first step, and at the start of every step. -/
def StepObs.empty : StepObs := { kind := none, cycles := 0, trace := [] }

/-! ## The machine -/

/-- The whole machine: the CPU, the bus behind its port, the observations of the last step. -/
structure State where
  /-- The CPU record (10_state.md R31). -/
  cpu : Cpu
  /-- The bus state (20_memory.md R71). -/
  bus : Bus
  /-- The observations of the last step (60_exceptions.md R307). -/
  obs : StepObs
  deriving DecidableEq, Repr

/-- The faults of the machine: none. "A step never fails" (60_exceptions.md R287), and the treatment `fault` is used by
no entry of 93_implementation_defined.md, so this inductive has no constructor. -/
inductive Fault where
  deriving DecidableEq, Repr

/-- Why the machine has no step. -/
inductive Refusal where
  /-- Raised by exec alone, in the arm of an instruction without a meaning; no arm is left that raises it. Safe. -/
  | notModelled (mnemonic : String)
  /-- Raised by step, interrupt, serialize and deserialize with tag 0x00, the pre-load idle state, where none of them is
  defined (60_exceptions.md R308). Safe: the spec refuses them too. -/
  | preLoadIdle
  /-- Raised by step, interrupt, reset, serialize and deserialize with the tag of a console variant, an OPEN parameter no
  instance of which is given (00_scope.md R3, R7; log 7). Safe: nothing is claimed of it here; Machine/Variants.lean takes
  the variant as an argument. -/
  | consoleVariant (tag : Byte)
  deriving DecidableEq, Repr

/-! ## Reset -/

/-- The tag of REF8 (10_state.md R47). -/
def ref8Tag : Byte := 0x01

/-- The tag of no variant, the pre-load idle state (10_state.md R47). -/
def noVariantTag : Byte := 0x00

/-- The REF8 CPU after reset (10_state.md R50): every field 0, and the tag as it was. -/
def Cpu.resetTo (variant : Byte) : Cpu :=
  { regs := Vector.replicate 8 0x00, sp := 0x0000, pc := 0x0000, f := 0x00, ie := false, ies := false,
    halted := false, irq := false, cyc := 0, variant := variant }

/-- The machine right after a ROM load that selected REF8 (70_reset_and_hazards.md R321; log 6), on the reference bus
(log 2). -/
def State.reset : State :=
  { cpu := Cpu.resetTo ref8Tag, bus := Bus.reference, obs := StepObs.empty }

end Sys2Proof.Machine
end

