-- ==== Sys2Proof/Machine/Memory.lean ====
section
/-! DEFINITION. Memory behind the RAM and ROM regions (20_memory.md R77, R92): one byte per address, held as a list of
cells in one canonical form, so that equal memories are equal data. -/

namespace Sys2Proof.Machine

/-- What an unlisted address reads as: 0x00, as the reference bus starts (93_implementation_defined.md S14; log 2). -/
def Memory.unlisted : Byte := 0x00

/-- The byte memory holds at an address. -/
def Memory.byteAt : Memory → Nat → Byte
  | [], _ => Memory.unlisted
  | (k, v) :: rest, a => if k = a then v else Memory.byteAt rest a

/-- Memory with one byte stored. Storing what an unlisted address reads as removes the entry. -/
def Memory.store : Memory → Nat → Byte → Memory
  | [], a, v => if v = Memory.unlisted then [] else [(a, v)]
  | (k, w) :: rest, a, v =>
    if a < k then
      if v = Memory.unlisted then (k, w) :: rest else (a, v) :: (k, w) :: rest
    else if a = k then
      if v = Memory.unlisted then rest else (a, v) :: rest
    else (k, w) :: Memory.store rest a v

/-- The canonical form: addresses strictly rising, each below 2^16 (20_memory.md R77), and no entry equal to what an
unlisted address reads as. -/
abbrev Memory.wf (m : Memory) : Prop :=
  List.Pairwise (fun x y : Host.Cell => x.1 < y.1) m ∧ ∀ c ∈ m, c.1 < 65536 ∧ c.2 ≠ Memory.unlisted

end Sys2Proof.Machine
end

