-- ==== Sys2Proof/Machine/Bus.lean ====
section
/-! DEFINITION. The bus as the CPU sees it (20_memory.md R70 to R76): every address has one answer, no access fails, a
device's answer and change of state are the platform's. -/

namespace Sys2Proof.Machine

/-- The region's range holds the address. -/
def Region.holds (r : Region) (a : Addr) : Bool :=
  decide (r.first.toNat ≤ a.toNat) && decide (a.toNat ≤ r.last.toNat)

/-- What answers at an address: the first region in priority order that holds it, else nothing (20_memory.md R76;
90_conflicts.md C2, C3). -/
def Bus.kindAt (b : Bus) (a : Addr) : RegionKind :=
  match b.regions.find? (fun r => r.holds a) with
  | some r => r.kind
  | none => .unmapped

/-- The byte a read at an address gives now (20_memory.md R71, R74, R75). -/
def Bus.answer (b : Bus) (a : Addr) : Byte :=
  match b.kindAt a with
  | .ram => b.mem.byteAt a.toNat
  | .rom => b.mem.byteAt a.toNat
  | .mmio => Config.mmioRead b.dev a
  | .unmapped => Config.openBus b.dev b.last a

/-- The bus after a read at an address: a device may change its state (20_memory.md R71). -/
def Bus.afterRead (b : Bus) (a : Addr) : Bus :=
  match b.kindAt a with
  | .ram => { b with last := b.answer a }
  | .rom => { b with last := b.answer a }
  | .mmio => { b with dev := Config.mmioReadState b.dev a, last := b.answer a }
  | .unmapped => { b with last := b.answer a }

/-- `read(address) -> byte` (20_memory.md R70, R71). -/
def Bus.read (b : Bus) (a : Addr) : Byte × Bus := (b.answer a, b.afterRead a)

/-- `write(address, byte)` (20_memory.md R70, R71): stored in RAM, without effect on ROM (R75) and on an unmapped address
(R74), a device's own matter on MMIO. -/
def Bus.write (b : Bus) (a : Addr) (v : Byte) : Bus :=
  match b.kindAt a with
  | .ram => { b with mem := b.mem.store a.toNat v }
  | .rom => b
  | .mmio => { b with dev := Config.mmioWriteState b.dev a v }
  | .unmapped => b

/-- A region registered later wins over the earlier ones (20_memory.md R76). -/
def Bus.register (b : Bus) (r : Region) : Bus := { b with regions := r :: b.regions }

end Sys2Proof.Machine
end

