-- ==== Sys2Proof/Machine/Flags.lean ====
section
/-! DEFINITION. The layout of F (10_state.md R36, R37), the ALU functions with their flags (40_alu.md R130 to R133), the
shift and unary functions (40_alu.md R152 to R159), multiply and divide (R160, R161) and the branch conditions
(42_control_transfer.md R230). -/

namespace Sys2Proof.Machine

/-! ## The flag register -/

/-- Bit C of a flag byte (10_state.md R36). -/
def bitC (f : Byte) : Bool := f.getLsbD 0

/-- Bit V of a flag byte (10_state.md R36). -/
def bitV (f : Byte) : Bool := f.getLsbD 1

/-- Bit Z of a flag byte (10_state.md R36). -/
def bitZ (f : Byte) : Bool := f.getLsbD 2

/-- Bit S of a flag byte (10_state.md R36). -/
def bitS (f : Byte) : Bool := f.getLsbD 3

/-- The flag byte of four flags, bits 7..4 clear (10_state.md R36, R37). -/
def packFlags (c v z s : Bool) : Byte :=
  BitVec.ofNat 8 (c.toNat + 2 * v.toNat + 4 * z.toNat + 8 * s.toNat)

/-- What any write of F stores, and what any read of it gives: bits 7..4 are 0 (10_state.md R37). -/
def maskFlags (v : Byte) : Byte := v &&& 0x0F

/-! ## The ALU functions -/

/-- A result and the four flags computed with it (40_alu.md R130 to R132). -/
structure AluOut where
  /-- The result. -/
  res : Byte
  /-- Carry, or borrow on subtraction. -/
  c : Bool
  /-- Two's complement overflow. -/
  v : Bool
  /-- The result is zero. -/
  z : Bool
  /-- Bit 7 of the result. -/
  s : Bool
  deriving DecidableEq, Repr

/-- A result with given C and V, and Z and S from the result: `ZS(x)` of 40_alu.md R133. -/
def aluOut (res : Byte) (c v : Bool) : AluOut :=
  { res := res, c := c, v := v, z := res == 0x00, s := res.getLsbD 7 }

/-- `alu_add` (40_alu.md R130). -/
def aluAdd (a b : Byte) (cin : Bool) : AluOut :=
  let t := a.toNat + b.toNat + cin.toNat
  let res := BitVec.ofNat 8 t
  aluOut res (decide (t > 255)) (a.getLsbD 7 == b.getLsbD 7 && res.getLsbD 7 != a.getLsbD 7)

/-- `alu_sub`; its c is a borrow (40_alu.md R131). -/
def aluSub (a b : Byte) (bin : Bool) : AluOut :=
  let t : Int := (a.toNat : Int) - (b.toNat : Int) - (bin.toNat : Int)
  let res := BitVec.ofInt 8 t
  aluOut res (decide (t < 0)) (a.getLsbD 7 != b.getLsbD 7 && res.getLsbD 7 != a.getLsbD 7)

/-- `alu_and` (40_alu.md R132). -/
def aluAnd (a b : Byte) : AluOut := aluOut (a &&& b) false false

/-- `alu_xor` (40_alu.md R132). -/
def aluXor (a b : Byte) : AluOut := aluOut (a ^^^ b) false false

/-- `alu_or` (40_alu.md R132). -/
def aluOr (a b : Byte) : AluOut := aluOut (a ||| b) false false

/-! ## Shifts, rotates and unary operations on A -/

/-- SHL: C is the old bit 7 (40_alu.md R152). -/
def aluShl (a : Byte) : AluOut := aluOut (a <<< 1) (a.getLsbD 7) false

/-- SHR: C is the old bit 0 (40_alu.md R153). -/
def aluShr (a : Byte) : AluOut := aluOut (a >>> 1) (a.getLsbD 0) false

/-- SAR: bit 7 is kept, C is the old bit 0 (40_alu.md R154). -/
def aluSar (a : Byte) : AluOut := aluOut ((a >>> 1) ||| (a &&& 0x80)) (a.getLsbD 0) false

/-- RCL: C enters at bit 0, the old bit 7 leaves to C (40_alu.md R155). -/
def aluRcl (a : Byte) (cin : Bool) : AluOut :=
  aluOut ((a <<< 1) ||| BitVec.ofNat 8 cin.toNat) (a.getLsbD 7) false

/-- RCR: C enters at bit 7, the old bit 0 leaves to C (40_alu.md R156). -/
def aluRcr (a : Byte) (cin : Bool) : AluOut :=
  aluOut ((BitVec.ofNat 8 cin.toNat <<< 7) ||| (a >>> 1)) (a.getLsbD 0) false

/-- The result of NOT (40_alu.md R157). -/
def notByte (a : Byte) : Byte := a ^^^ 0xFF

/-- The result of SWAP: the nibbles exchanged (40_alu.md R159). -/
def swapNibbles (a : Byte) : Byte := ((a &&& 0x0F) <<< 4) ||| (a >>> 4)

/-! ## Multiply and divide -/

/-- The exact 16-bit product of two unsigned bytes (40_alu.md R160). -/
def product (a b : Byte) : Addr := a.setWidth 16 * b.setWidth 16

/-- The flags of MUL from its product: C = the high byte is non-zero, V = 0, Z = the product is 0, S = bit 15
(40_alu.md R160). -/
def productFlags (p : Addr) : Byte :=
  packFlags (p.extractLsb' 8 8 != 0x00) false (p == 0x0000) (p.getLsbD 15)

/-- Quotient, remainder and flags of DIV; d = 0 has its own defined result (40_alu.md R161). -/
def divide (n d : Byte) : Byte × Byte × Byte :=
  if d = 0x00 then (0xFF, n, packFlags false true false true)
  else (n / d, n % d, packFlags false false (n / d == 0x00) ((n / d).getLsbD 7))

/-! ## Branch conditions -/

/-- `cond(c)`: a branch condition field against F (30_encoding.md R108; 42_control_transfer.md R230). -/
def cond (c : Fin 8) (f : Byte) : Bool :=
  match c.val with
  | 0 => bitZ f
  | 1 => !bitZ f
  | 2 => bitC f
  | 3 => !bitC f
  | 4 => bitS f
  | 5 => !bitS f
  | 6 => bitV f
  | _ => !bitV f

end Sys2Proof.Machine
end

