-- ==== Sys2Proof/Machine/Operands.lean ====
section
/-! DEFINITION. The operand forms of REF8: general registers, pairs (10_state.md R32), the flag register, immediates and
relative offsets (30_encoding.md R104 to R106), and the halves of a 16-bit value (00_scope.md R11). -/

namespace Sys2Proof.Machine

/-! ## Bytes and words -/

/-- `hi ++ lo` (00_scope.md R11). -/
def word16 (hi lo : Byte) : Addr := hi ++ lo

/-- `v[15:8]`. -/
def highByte (v : Addr) : Byte := v.extractLsb' 8 8

/-- `v[7:0]`. -/
def lowByte (v : Addr) : Byte := v.extractLsb' 0 8

/-- `sext_16(v)` (00_scope.md R12). -/
def sext16 (v : Byte) : Addr := v.signExtend 16

/-- The target of a relative branch from the address after it (30_encoding.md R105). -/
def relTarget (next : Addr) (rel : Byte) : Addr := next + sext16 rel

/-! ## General registers and pairs -/

/-- The even register of a pair, its low byte (10_state.md R32). -/
def pairLow (p : PairIdx) : RegIdx := ⟨2 * p.val, by omega⟩

/-- The odd register of a pair, its high byte (10_state.md R32). -/
def pairHigh (p : PairIdx) : RegIdx := ⟨2 * p.val + 1, by omega⟩

/-- `R[r]` (00_scope.md R13). -/
def State.reg (s : State) (r : RegIdx) : Byte := s.cpu.regs[r.val]

/-- `R[r] <- v` (00_scope.md R13). -/
def State.setReg (s : State) (r : RegIdx) (v : Byte) : State :=
  { s with cpu := { s.cpu with regs := s.cpu.regs.set r.val v } }

/-- `P[p] = R[2p+1] ++ R[2p]` (10_state.md R32). -/
def State.pair (s : State) (p : PairIdx) : Addr := word16 (s.reg (pairHigh p)) (s.reg (pairLow p))

/-- `P[p] <- v`, both registers at once (10_state.md R32). -/
def State.setPair (s : State) (p : PairIdx) (v : Addr) : State :=
  (s.setReg (pairHigh p) (highByte v)).setReg (pairLow p) (lowByte v)

/-- A, another name of R0 (10_state.md R33). -/
def State.acc (s : State) : Byte := s.reg 0

/-- P3, the pointer pair (00_scope.md R17). -/
def State.pointer (s : State) : Addr := s.pair 3

/-! ## The other fields of the CPU record -/

/-- `SP <- v`. -/
def State.setSP (s : State) (v : Addr) : State := { s with cpu := { s.cpu with sp := v } }

/-- `PC <- v`. -/
def State.setPC (s : State) (v : Addr) : State := { s with cpu := { s.cpu with pc := v } }

/-- F as it reads: bits 7..4 are always 0 (10_state.md R37; log 10). -/
def State.flags (s : State) : Byte := maskFlags s.cpu.f

/-- `F <- v & 0x0F` (10_state.md R37). -/
def State.setFlags (s : State) (v : Byte) : State := { s with cpu := { s.cpu with f := maskFlags v } }

/-- `IE <- v`. -/
def State.setIE (s : State) (v : Bool) : State := { s with cpu := { s.cpu with ie := v } }

/-- `IES <- v`. -/
def State.setIES (s : State) (v : Bool) : State := { s with cpu := { s.cpu with ies := v } }

/-- `HALTED <- v`. -/
def State.setHalted (s : State) (v : Bool) : State := { s with cpu := { s.cpu with halted := v } }

/-- `IRQ <- v`. -/
def State.setIRQ (s : State) (v : Bool) : State := { s with cpu := { s.cpu with irq := v } }

/-! ## The selected variant -/

/-- Why the operations of a selected variant are not defined for a CPU record: none for REF8, the one variant with an
instance here (60_exceptions.md R308; log 7). -/
def Cpu.refusal (c : Cpu) : Option Refusal :=
  if c.variant = ref8Tag then none
  else if c.variant = noVariantTag then some .preLoadIdle
  else some (.consoleVariant c.variant)

/-! ## Writing flags by name (40_alu.md R133) -/

/-- Bit C of F as it reads. -/
def State.flagC (s : State) : Bool := bitC s.flags

/-- Bit V of F as it reads. -/
def State.flagV (s : State) : Bool := bitV s.flags

/-- Bit Z of F as it reads. -/
def State.flagZ (s : State) : Bool := bitZ s.flags

/-- Bit S of F as it reads. -/
def State.flagS (s : State) : Bool := bitS s.flags

/-- `setCVZS` (40_alu.md R133). -/
def State.setCVZS (s : State) (c v z sg : Bool) : State := s.setFlags (packFlags c v z sg)

/-- `setVZS`: C unchanged (40_alu.md R133). -/
def State.setVZS (s : State) (v z sg : Bool) : State := s.setCVZS s.flagC v z sg

/-- Z alone: C, V and S unchanged (40_alu.md R133). -/
def State.setZ (s : State) (z : Bool) : State := s.setCVZS s.flagC s.flagV z s.flagS

/-- C alone: V, Z and S unchanged (40_alu.md R133). -/
def State.setC (s : State) (c : Bool) : State := s.setCVZS c s.flagV s.flagZ s.flagS

end Sys2Proof.Machine
end

