-- ==== Sys2Proof/Machine/Ops.lean ====
section
/-! DEFINITION. The named operations of the machine: bus accesses (20_memory.md R71, R77), the stack
(41_data_movement.md R190 to R193), cycles (10_state.md R46), the shared ALU and branch effects, trap entry and trap return
(60_exceptions.md R292, R295), and fetch (30_encoding.md R114). -/

namespace Sys2Proof.Machine

/-! ## Bus accesses, each recorded in the trace of the step -/

/-- `MemRead(a, 1)`: one bus read (20_memory.md R71). -/
def State.memRead (s : State) (a : Addr) : Byte × State :=
  let r := s.bus.read a
  (r.1, { s with bus := r.2, obs := { s.obs with trace := s.obs.trace ++ [.read a r.1] } })

/-- `MemWrite(a, 1, v)`: one bus write (20_memory.md R71). -/
def State.memWrite (s : State) (a : Addr) (v : Byte) : State :=
  { s with bus := s.bus.write a v, obs := { s.obs with trace := s.obs.trace ++ [.write a v] } }

/-- `MemRead(a, 2)`: the low byte at a, then the high byte at a + 1 (20_memory.md R77). -/
def State.memRead16 (s : State) (a : Addr) : Addr × State :=
  let lo := s.memRead a
  let hi := lo.2.memRead (a + 1)
  (word16 hi.1 lo.1, hi.2)

/-- The byte the memory of the RAM and ROM regions holds at an address: no bus access. -/
def State.memByte (s : State) (a : Addr) : Byte := s.bus.mem.byteAt a.toNat

/-! ## The stack -/

/-- `push8` (41_data_movement.md R190). -/
def State.push8 (s : State) (v : Byte) : State :=
  (s.setSP (s.cpu.sp - 1)).memWrite (s.cpu.sp - 1) v

/-- `push16`: the high byte first (41_data_movement.md R191). -/
def State.push16 (s : State) (v : Addr) : State :=
  (s.push8 (highByte v)).push8 (lowByte v)

/-- `pop8` (41_data_movement.md R192). -/
def State.pop8 (s : State) : Byte × State :=
  let r := s.memRead s.cpu.sp
  (r.1, r.2.setSP (s.cpu.sp + 1))

/-- `pop16`: the low byte first (41_data_movement.md R193). -/
def State.pop16 (s : State) : Addr × State :=
  let lo := s.pop8
  let hi := lo.2.pop8
  (word16 hi.1 lo.1, hi.2)

/-! ## Cycles -/

/-- The cycles of a step: returned, and added to CYC modulo 2^64 (10_state.md R46; 60_exceptions.md R290). -/
def State.charge (s : State) (n : Nat) : State :=
  { s with cpu := { s.cpu with cyc := s.cpu.cyc + BitVec.ofNat 64 n }, obs := { s.obs with cycles := n } }

/-! ## Shared effects of instructions -/

/-- `R[r] <- x; setCVZS(c, v, z, s)`. -/
def State.writeAlu (s : State) (r : RegIdx) (x : AluOut) : State :=
  (s.setReg r x.res).setCVZS x.c x.v x.z x.s

/-- `R[r] <- x; setVZS(v, z, s)`: C is unchanged. -/
def State.writeAluKeepC (s : State) (r : RegIdx) (x : AluOut) : State :=
  (s.setReg r x.res).setVZS x.v x.z x.s

/-- `setCVZS(c, v, z, s)` alone: the result is discarded (40_alu.md R141). -/
def State.compareAlu (s : State) (x : AluOut) : State := s.setCVZS x.c x.v x.z x.s

/-- A conditional branch: 3 cycles if taken, 2 if not (42_control_transfer.md R233). -/
def State.branchIf (s : State) (taken : Bool) (rel : Byte) : State :=
  if taken then (s.setPC (relTarget s.cpu.pc rel)).charge 3 else s.charge 2

/-! ## Traps -/

/-- Entry address of reset (20_memory.md R82). -/
def resetEntry : Addr := 0x0000

/-- Entry address of the IRQ handler (20_memory.md R82; 60_exceptions.md R297). -/
def irqEntry : Addr := 0x0008

/-- Entry address of the SWI handler (20_memory.md R82; 60_exceptions.md R297). -/
def swiEntry : Addr := 0x0010

/-- `enter_trap(vector, ret)`, the one trap entry sequence (60_exceptions.md R292). -/
def State.enterTrap (s : State) (vector ret : Addr) : State :=
  (((((s.push16 ret).push8 s.flags).setIE false).setIES false).setHalted false).setPC vector

/-- The return from a trap: `F <- pop8() & 0x0F; PC <- pop16(); IE <- 1` (43_system.md R265; 60_exceptions.md R295). -/
def State.returnFromTrap (s : State) : State :=
  let f := s.pop8
  let ret := (f.2.setFlags f.1).pop16
  (ret.2.setPC ret.1).setIE true

/-! ## Fetch -/

/-- The bytes of a fetched instruction, the ones its format does not have as 0x00, and the state after the fetch. -/
structure Fetched where
  /-- The opcode byte. -/
  op : Byte
  /-- The byte after it, if fetched. -/
  b1 : Byte
  /-- The third byte, if fetched. -/
  b2 : Byte
  /-- The state after the fetch reads, with PC at the next instruction. -/
  state : State
  deriving DecidableEq, Repr

/-- `if wanted: MemRead(a, 1)`; a read that is not wanted is not issued (20_memory.md R81). -/
def State.readIf (s : State) (wanted : Bool) (a : Addr) : Byte × State :=
  if wanted then s.memRead a else (0x00, s)

/-- `fetch()`: the instruction's bytes in ascending address order, PC advanced to `next` (30_encoding.md R114). -/
def State.fetch (s : State) : Fetched :=
  let a := s.cpu.pc
  let r0 := s.memRead a
  let n := instrLen r0.1
  let r1 := r0.2.readIf (decide (2 ≤ n)) (a + 1)
  let r2 := r1.2.readIf (decide (n = 3)) (a + 2)
  { op := r0.1, b1 := r1.1, b2 := r2.1, state := r2.2.setPC (a + BitVec.ofNat 16 n) }

/-! ## The record of the step -/

/-- The state at the start of a step: nothing observed yet (60_exceptions.md R307). -/
def State.clearObs (s : State) : State := { s with obs := StepObs.empty }

/-- `kind <- k` (60_exceptions.md R290, R307). -/
def State.setKind (s : State) (k : StepKind) : State := { s with obs := { s.obs with kind := some k } }

end Sys2Proof.Machine
end

