-- ==== Sys2Proof/Machine/Alu.lean ====
section
/-! DEFINITION. The ALU and arithmetic instructions (40_alu.md R134 to R166). None accesses the bus after its fetch. -/

namespace Sys2Proof.Machine

/-! ## Register forms (A op Rr), 1 cycle -/

/-- ADD Rr: A <- A + Rr; C, V, Z, S (40_alu.md R134). -/
def execAdd (r : RegIdx) (s : State) : Host.Outcome State Fault Refusal :=
  .next ((s.writeAlu 0 (aluAdd s.acc (s.reg r) false)).charge 1)

/-- ADC Rr: A <- A + Rr + C, C read before it is written; C, V, Z, S (40_alu.md R135). -/
def execAdc (r : RegIdx) (s : State) : Host.Outcome State Fault Refusal :=
  .next ((s.writeAlu 0 (aluAdd s.acc (s.reg r) s.flagC)).charge 1)

/-- SUB Rr: A <- A - Rr; C is the borrow (40_alu.md R136). -/
def execSub (r : RegIdx) (s : State) : Host.Outcome State Fault Refusal :=
  .next ((s.writeAlu 0 (aluSub s.acc (s.reg r) false)).charge 1)

/-- SBC Rr: A <- A - Rr - C, C as borrow-in (40_alu.md R137). -/
def execSbc (r : RegIdx) (s : State) : Host.Outcome State Fault Refusal :=
  .next ((s.writeAlu 0 (aluSub s.acc (s.reg r) s.flagC)).charge 1)

/-- AND Rr: A <- A & Rr; C = V = 0 (40_alu.md R138). -/
def execAnd (r : RegIdx) (s : State) : Host.Outcome State Fault Refusal :=
  .next ((s.writeAlu 0 (aluAnd s.acc (s.reg r))).charge 1)

/-- XOR Rr: A <- A ^ Rr; C = V = 0 (40_alu.md R139). -/
def execXor (r : RegIdx) (s : State) : Host.Outcome State Fault Refusal :=
  .next ((s.writeAlu 0 (aluXor s.acc (s.reg r))).charge 1)

/-- OR Rr: A <- A | Rr; C = V = 0 (40_alu.md R140). -/
def execOr (r : RegIdx) (s : State) : Host.Outcome State Fault Refusal :=
  .next ((s.writeAlu 0 (aluOr s.acc (s.reg r))).charge 1)

/-- CMP Rr: the flags of A - Rr; A is unchanged (40_alu.md R141). -/
def execCmp (r : RegIdx) (s : State) : Host.Outcome State Fault Refusal :=
  .next ((s.compareAlu (aluSub s.acc (s.reg r) false)).charge 1)

/-! ## Immediate forms (A op #imm8), 2 cycles -/

/-- ADDI #imm8: A <- A + imm8 (40_alu.md R142). -/
def execAddi (imm : Byte) (s : State) : Host.Outcome State Fault Refusal :=
  .next ((s.writeAlu 0 (aluAdd s.acc imm false)).charge 2)

/-- ADCI #imm8: A <- A + imm8 + C (40_alu.md R143). -/
def execAdci (imm : Byte) (s : State) : Host.Outcome State Fault Refusal :=
  .next ((s.writeAlu 0 (aluAdd s.acc imm s.flagC)).charge 2)

/-- SUBI #imm8: A <- A - imm8; C is the borrow (40_alu.md R144). -/
def execSubi (imm : Byte) (s : State) : Host.Outcome State Fault Refusal :=
  .next ((s.writeAlu 0 (aluSub s.acc imm false)).charge 2)

/-- SBCI #imm8: A <- A - imm8 - C (40_alu.md R145). -/
def execSbci (imm : Byte) (s : State) : Host.Outcome State Fault Refusal :=
  .next ((s.writeAlu 0 (aluSub s.acc imm s.flagC)).charge 2)

/-- ANDI #imm8: A <- A & imm8; C = V = 0 (40_alu.md R146). -/
def execAndi (imm : Byte) (s : State) : Host.Outcome State Fault Refusal :=
  .next ((s.writeAlu 0 (aluAnd s.acc imm)).charge 2)

/-- XORI #imm8: A <- A ^ imm8; C = V = 0 (40_alu.md R147). -/
def execXori (imm : Byte) (s : State) : Host.Outcome State Fault Refusal :=
  .next ((s.writeAlu 0 (aluXor s.acc imm)).charge 2)

/-- ORI #imm8: A <- A | imm8; C = V = 0 (40_alu.md R148). -/
def execOri (imm : Byte) (s : State) : Host.Outcome State Fault Refusal :=
  .next ((s.writeAlu 0 (aluOr s.acc imm)).charge 2)

/-- CMPI #imm8: the flags of A - imm8; A is unchanged (40_alu.md R149). -/
def execCmpi (imm : Byte) (s : State) : Host.Outcome State Fault Refusal :=
  .next ((s.compareAlu (aluSub s.acc imm false)).charge 2)

/-! ## Increment and decrement of one register -/

/-- INC Rr: Rr <- Rr + 1; V, Z, S; C unchanged; 1 cycle (40_alu.md R150). -/
def execInc (r : RegIdx) (s : State) : Host.Outcome State Fault Refusal :=
  .next ((s.writeAluKeepC r (aluAdd (s.reg r) 0x01 false)).charge 1)

/-- DEC Rr: Rr <- Rr - 1; V, Z, S; C unchanged; 1 cycle (40_alu.md R151). -/
def execDec (r : RegIdx) (s : State) : Host.Outcome State Fault Refusal :=
  .next ((s.writeAluKeepC r (aluSub (s.reg r) 0x01 false)).charge 1)

/-! ## Shifts, rotates and unary operations on A, 1 cycle -/

/-- SHL: logical shift left; C = old bit 7, V = 0 (40_alu.md R152). -/
def execShl (s : State) : Host.Outcome State Fault Refusal :=
  .next ((s.writeAlu 0 (aluShl s.acc)).charge 1)

/-- SHR: logical shift right; C = old bit 0, V = 0 (40_alu.md R153). -/
def execShr (s : State) : Host.Outcome State Fault Refusal :=
  .next ((s.writeAlu 0 (aluShr s.acc)).charge 1)

/-- SAR: arithmetic shift right; C = old bit 0, V = 0 (40_alu.md R154). -/
def execSar (s : State) : Host.Outcome State Fault Refusal :=
  .next ((s.writeAlu 0 (aluSar s.acc)).charge 1)

/-- RCL: rotate left through C; V = 0 (40_alu.md R155). -/
def execRcl (s : State) : Host.Outcome State Fault Refusal :=
  .next ((s.writeAlu 0 (aluRcl s.acc s.flagC)).charge 1)

/-- RCR: rotate right through C; V = 0 (40_alu.md R156). -/
def execRcr (s : State) : Host.Outcome State Fault Refusal :=
  .next ((s.writeAlu 0 (aluRcr s.acc s.flagC)).charge 1)

/-- NOT: one's complement; V = 0, C unchanged (40_alu.md R157). -/
def execNot (s : State) : Host.Outcome State Fault Refusal :=
  .next ((s.writeAluKeepC 0 (aluOut (notByte s.acc) false false)).charge 1)

/-- NEG: 0 - A with the flags of that subtraction (40_alu.md R158). -/
def execNeg (s : State) : Host.Outcome State Fault Refusal :=
  .next ((s.writeAlu 0 (aluSub 0x00 s.acc false)).charge 1)

/-- SWAP: the nibbles of A exchanged; V = 0, C unchanged (40_alu.md R159). -/
def execSwap (s : State) : Host.Outcome State Fault Refusal :=
  .next ((s.writeAluKeepC 0 (aluOut (swapNibbles s.acc) false false)).charge 1)

/-! ## Multiply and divide -/

/-- MUL: P0 <- R0 * R1, unsigned and exact; C = high byte non-zero, V = 0, Z = product 0, S = bit 15; 8 cycles
(40_alu.md R160). -/
def execMul (s : State) : Host.Outcome State Fault Refusal :=
  let p := product (s.reg 0) (s.reg 1)
  .next (((s.setPair 0 p).setFlags (productFlags p)).charge 8)

/-- DIV: R0 <- R0 / R1 and R1 <- R0 mod R1, unsigned; for R1 = 0 the quotient is 0xFF, the remainder the dividend and
V = 1; C = 0; 16 cycles (40_alu.md R161). -/
def execDiv (s : State) : Host.Outcome State Fault Refusal :=
  let q := divide (s.reg 0) (s.reg 1)
  .next ((((s.setReg 0 q.1).setReg 1 q.2.1).setFlags q.2.2).charge 16)

/-! ## 16-bit increment and decrement -/

/-- INCW Pp: Pp <- Pp + 1; Z from the 16-bit result; C, V, S unchanged; 2 cycles (40_alu.md R162). -/
def execIncw (p : PairIdx) (s : State) : Host.Outcome State Fault Refusal :=
  let x := s.pair p + 1
  .next (((s.setPair p x).setZ (x == 0x0000)).charge 2)

/-- DECW Pp: Pp <- Pp - 1; Z from the 16-bit result; C, V, S unchanged; 2 cycles (40_alu.md R163). -/
def execDecw (p : PairIdx) (s : State) : Host.Outcome State Fault Refusal :=
  let x := s.pair p - 1
  .next (((s.setPair p x).setZ (x == 0x0000)).charge 2)

/-! ## Carry flag operations, 1 cycle -/

/-- CLC: C <- 0 (40_alu.md R164). -/
def execClc (s : State) : Host.Outcome State Fault Refusal :=
  .next ((s.setC false).charge 1)

/-- SEC: C <- 1 (40_alu.md R165). -/
def execSec (s : State) : Host.Outcome State Fault Refusal :=
  .next ((s.setC true).charge 1)

/-- CMC: C <- 1 - C (40_alu.md R166). -/
def execCmc (s : State) : Host.Outcome State Fault Refusal :=
  .next ((s.setC (!s.flagC)).charge 1)

end Sys2Proof.Machine
end

