-- ==== Sys2Proof/Machine/Control.lean ====
section
/-! DEFINITION. Control transfer (42_control_transfer.md R232 to R245). When an instruction runs, PC already holds `next`
(30_encoding.md R114). None writes a flag. -/

namespace Sys2Proof.Machine

/-! ## Relative branches: PC holds `next`, the address after the branch -/

/-- BEQ rel8: branch if Z = 1; 3 cycles if taken, 2 if not (42_control_transfer.md R233). -/
def execBeq (rel : Byte) (s : State) : Host.Outcome State Fault Refusal :=
  .next (s.branchIf (cond 0 s.flags) rel)

/-- BNE rel8: branch if Z = 0; 3 cycles if taken, 2 if not (42_control_transfer.md R234). -/
def execBne (rel : Byte) (s : State) : Host.Outcome State Fault Refusal :=
  .next (s.branchIf (cond 1 s.flags) rel)

/-- BCS rel8: branch if C = 1; 3 cycles if taken, 2 if not (42_control_transfer.md R235). -/
def execBcs (rel : Byte) (s : State) : Host.Outcome State Fault Refusal :=
  .next (s.branchIf (cond 2 s.flags) rel)

/-- BCC rel8: branch if C = 0; 3 cycles if taken, 2 if not (42_control_transfer.md R236). -/
def execBcc (rel : Byte) (s : State) : Host.Outcome State Fault Refusal :=
  .next (s.branchIf (cond 3 s.flags) rel)

/-- BMI rel8: branch if S = 1; 3 cycles if taken, 2 if not (42_control_transfer.md R237). -/
def execBmi (rel : Byte) (s : State) : Host.Outcome State Fault Refusal :=
  .next (s.branchIf (cond 4 s.flags) rel)

/-- BPL rel8: branch if S = 0; 3 cycles if taken, 2 if not (42_control_transfer.md R238). -/
def execBpl (rel : Byte) (s : State) : Host.Outcome State Fault Refusal :=
  .next (s.branchIf (cond 5 s.flags) rel)

/-- BVS rel8: branch if V = 1; 3 cycles if taken, 2 if not (42_control_transfer.md R239). -/
def execBvs (rel : Byte) (s : State) : Host.Outcome State Fault Refusal :=
  .next (s.branchIf (cond 6 s.flags) rel)

/-- BVC rel8: branch if V = 0; 3 cycles if taken, 2 if not (42_control_transfer.md R240). -/
def execBvc (rel : Byte) (s : State) : Host.Outcome State Fault Refusal :=
  .next (s.branchIf (cond 7 s.flags) rel)

/-- BRA rel8: branch always; 3 cycles (42_control_transfer.md R232). -/
def execBra (rel : Byte) (s : State) : Host.Outcome State Fault Refusal :=
  .next ((s.setPC (relTarget s.cpu.pc rel)).charge 3)

/-! ## Jumps -/

/-- JMP abs16: PC <- abs16; 4 cycles (42_control_transfer.md R241). -/
def execJmp (abs : Addr) (s : State) : Host.Outcome State Fault Refusal :=
  .next ((s.setPC abs).charge 4)

/-- JMPI: PC <- P3; 2 cycles (42_control_transfer.md R242). -/
def execJmpi (s : State) : Host.Outcome State Fault Refusal :=
  .next ((s.setPC s.pointer).charge 2)

/-! ## Calls and return -/

/-- CALL abs16: push16(next), PC <- abs16; 6 cycles (42_control_transfer.md R243). -/
def execCall (abs : Addr) (s : State) : Host.Outcome State Fault Refusal :=
  .next (((s.push16 s.cpu.pc).setPC abs).charge 6)

/-- CALLI: push16(next), PC <- P3; 4 cycles (42_control_transfer.md R244). -/
def execCalli (s : State) : Host.Outcome State Fault Refusal :=
  .next (((s.push16 s.cpu.pc).setPC s.pointer).charge 4)

/-- RET: PC <- pop16(); 4 cycles (42_control_transfer.md R245). -/
def execRet (s : State) : Host.Outcome State Fault Refusal :=
  let m := s.pop16
  .next ((m.2.setPC m.1).charge 4)

end Sys2Proof.Machine
end

