-- ==== Sys2Proof/Machine/Move.lean ====
section
/-! DEFINITION. Data movement, loads, stores and the stack (41_data_movement.md R194 to R207). No instruction here writes a flag
but POPF. -/

namespace Sys2Proof.Machine

/-! ## Register moves and immediates -/

/-- MOV Rd, Rr: Rd <- Rr; no flag; 1 cycle (41_data_movement.md R194). -/
def execMov (d r : RegIdx) (s : State) : Host.Outcome State Fault Refusal :=
  .next ((s.setReg d (s.reg r)).charge 1)

/-- LDI Rr, #imm8: Rr <- imm8; no flag; 2 cycles (41_data_movement.md R195). -/
def execLdi (r : RegIdx) (imm : Byte) (s : State) : Host.Outcome State Fault Refusal :=
  .next ((s.setReg r imm).charge 2)

/-- LDW Pp, #imm16: Pp <- imm16; 3 cycles (41_data_movement.md R200). -/
def execLdw (p : PairIdx) (imm : Addr) (s : State) : Host.Outcome State Fault Refusal :=
  .next ((s.setPair p imm).charge 3)

/-! ## Loads and stores -/

/-- LD Rr, [abs16]: Rr <- the byte read at abs16; 4 cycles (41_data_movement.md R196). -/
def execLd (r : RegIdx) (abs : Addr) (s : State) : Host.Outcome State Fault Refusal :=
  let m := s.memRead abs
  .next ((m.2.setReg r m.1).charge 4)

/-- ST [abs16], Rr: Rr written at abs16; 4 cycles (41_data_movement.md R197). -/
def execSt (r : RegIdx) (abs : Addr) (s : State) : Host.Outcome State Fault Refusal :=
  .next ((s.memWrite abs (s.reg r)).charge 4)

/-- LDX Rr, [P3]: the address is P3 before Rr is written; P3 is not stepped; 2 cycles (41_data_movement.md R198). -/
def execLdx (r : RegIdx) (s : State) : Host.Outcome State Fault Refusal :=
  let m := s.memRead s.pointer
  .next ((m.2.setReg r m.1).charge 2)

/-- STX [P3], Rr: Rr written at P3; 2 cycles (41_data_movement.md R199). -/
def execStx (r : RegIdx) (s : State) : Host.Outcome State Fault Refusal :=
  .next ((s.memWrite s.pointer (s.reg r)).charge 2)

/-! ## Stack-pointer access -/

/-- LDSP #imm16: SP <- imm16; 3 cycles (41_data_movement.md R201). -/
def execLdsp (imm : Addr) (s : State) : Host.Outcome State Fault Refusal :=
  .next ((s.setSP imm).charge 3)

/-- MOVSP: SP <- P3; 2 cycles (41_data_movement.md R202). -/
def execMovsp (s : State) : Host.Outcome State Fault Refusal :=
  .next ((s.setSP s.pointer).charge 2)

/-- GETSP: P3 <- SP; 2 cycles (41_data_movement.md R203). -/
def execGetsp (s : State) : Host.Outcome State Fault Refusal :=
  .next ((s.setPair 3 s.cpu.sp).charge 2)

/-! ## Stack instructions -/

/-- PUSH Pp: push16(Pp); 3 cycles (41_data_movement.md R204). -/
def execPush (p : PairIdx) (s : State) : Host.Outcome State Fault Refusal :=
  .next ((s.push16 (s.pair p)).charge 3)

/-- POP Pp: Pp <- pop16(); 3 cycles (41_data_movement.md R205). -/
def execPop (p : PairIdx) (s : State) : Host.Outcome State Fault Refusal :=
  let m := s.pop16
  .next ((m.2.setPair p m.1).charge 3)

/-- PUSHF: push8(F), whose bits 7..4 are 0; 2 cycles (41_data_movement.md R206). -/
def execPushf (s : State) : Host.Outcome State Fault Refusal :=
  .next ((s.push8 s.flags).charge 2)

/-- POPF: F <- pop8() & 0x0F; IE is not changed; 2 cycles (41_data_movement.md R207). -/
def execPopf (s : State) : Host.Outcome State Fault Refusal :=
  let m := s.pop8
  .next ((m.2.setFlags m.1).charge 2)

end Sys2Proof.Machine
end

