-- ==== Sys2Proof/Machine/System.lean ====
section
/-! DEFINITION. System instructions (43_system.md R260 to R266). When one runs, PC already holds `next` and IES is cleared
(60_exceptions.md R290). -/

namespace Sys2Proof.Machine

/-- NOP: nothing; 1 cycle (43_system.md R260). -/
def execNop (s : State) : Host.Outcome State Fault Refusal :=
  .next (s.charge 1)

/-- HALT: HALTED <- 1; 1 cycle (43_system.md R261). -/
def execHalt (s : State) : Host.Outcome State Fault Refusal :=
  .next ((s.setHalted true).charge 1)

/-- DI: IE <- 0, IES <- 0; 1 cycle (43_system.md R262). -/
def execDi (s : State) : Host.Outcome State Fault Refusal :=
  .next (((s.setIE false).setIES false).charge 1)

/-- EI: IE <- 1, IES <- 1, the shadow over one more instruction; 1 cycle (43_system.md R263). -/
def execEi (s : State) : Host.Outcome State Fault Refusal :=
  .next (((s.setIE true).setIES true).charge 1)

/-- SWI: trap entry at 0x0010 with the address after the SWI, whatever IE is; 5 cycles (43_system.md R264). -/
def execSwi (s : State) : Host.Outcome State Fault Refusal :=
  .next ((s.enterTrap swiEntry s.cpu.pc).charge 5)

/-- RETI: F, PC from the trap frame, IE <- 1 with no shadow; 5 cycles (43_system.md R265). -/
def execReti (s : State) : Host.Outcome State Fault Refusal :=
  .next (s.returnFromTrap.charge 5)

/-- ILLEGAL 0x3F: a no-op of 2 cycles (43_system.md R266). -/
def execIllegal3F (s : State) : Host.Outcome State Fault Refusal :=
  .next (s.charge 2)

/-- ILLEGAL 0xFB: a no-op of 2 cycles (43_system.md R266). -/
def execIllegalFB (s : State) : Host.Outcome State Fault Refusal :=
  .next (s.charge 2)

/-- ILLEGAL 0xFC to 0xFF: a no-op of 2 cycles (43_system.md R266). -/
def execIllegalFC (s : State) : Host.Outcome State Fault Refusal :=
  .next (s.charge 2)

end Sys2Proof.Machine
end

