-- ==== Sys2Proof/Machine/Dispatch.lean ====
section
/-! DEFINITION. exec: the meaning of each instruction, one arm per constructor (30_encoding.md R110). It runs after the
fetch and the bookkeeping of 60_exceptions.md R290 (log 11). -/

namespace Sys2Proof.Machine

/-- `execute(op)` of 60_exceptions.md R290, with the cycles the instruction's rule states. -/
def exec (i : Instr) (s : State) : Host.Outcome State Fault Refusal :=
  match i with
  | .nop => Sys2Proof.Machine.execNop s
  | .halt => Sys2Proof.Machine.execHalt s
  | .di => Sys2Proof.Machine.execDi s
  | .ei => Sys2Proof.Machine.execEi s
  | .swi => Sys2Proof.Machine.execSwi s
  | .clc => Sys2Proof.Machine.execClc s
  | .sec => Sys2Proof.Machine.execSec s
  | .cmc => Sys2Proof.Machine.execCmc s
  | .ldi r imm => Sys2Proof.Machine.execLdi r imm s
  | .ld r abs => Sys2Proof.Machine.execLd r abs s
  | .st r abs => Sys2Proof.Machine.execSt r abs s
  | .ldx r => Sys2Proof.Machine.execLdx r s
  | .stx r => Sys2Proof.Machine.execStx r s
  | .ldw p imm => Sys2Proof.Machine.execLdw p imm s
  | .incw p => Sys2Proof.Machine.execIncw p s
  | .decw p => Sys2Proof.Machine.execDecw p s
  | .ldsp imm => Sys2Proof.Machine.execLdsp imm s
  | .movsp => Sys2Proof.Machine.execMovsp s
  | .getsp => Sys2Proof.Machine.execGetsp s
  | .illegal3F => Sys2Proof.Machine.execIllegal3F s
  | .mov d r => Sys2Proof.Machine.execMov d r s
  | .add r => Sys2Proof.Machine.execAdd r s
  | .adc r => Sys2Proof.Machine.execAdc r s
  | .sub r => Sys2Proof.Machine.execSub r s
  | .sbc r => Sys2Proof.Machine.execSbc r s
  | .and r => Sys2Proof.Machine.execAnd r s
  | .xor r => Sys2Proof.Machine.execXor r s
  | .or r => Sys2Proof.Machine.execOr r s
  | .cmp r => Sys2Proof.Machine.execCmp r s
  | .addi imm => Sys2Proof.Machine.execAddi imm s
  | .adci imm => Sys2Proof.Machine.execAdci imm s
  | .subi imm => Sys2Proof.Machine.execSubi imm s
  | .sbci imm => Sys2Proof.Machine.execSbci imm s
  | .andi imm => Sys2Proof.Machine.execAndi imm s
  | .xori imm => Sys2Proof.Machine.execXori imm s
  | .ori imm => Sys2Proof.Machine.execOri imm s
  | .cmpi imm => Sys2Proof.Machine.execCmpi imm s
  | .beq rel => Sys2Proof.Machine.execBeq rel s
  | .bne rel => Sys2Proof.Machine.execBne rel s
  | .bcs rel => Sys2Proof.Machine.execBcs rel s
  | .bcc rel => Sys2Proof.Machine.execBcc rel s
  | .bmi rel => Sys2Proof.Machine.execBmi rel s
  | .bpl rel => Sys2Proof.Machine.execBpl rel s
  | .bvs rel => Sys2Proof.Machine.execBvs rel s
  | .bvc rel => Sys2Proof.Machine.execBvc rel s
  | .inc r => Sys2Proof.Machine.execInc r s
  | .dec r => Sys2Proof.Machine.execDec r s
  | .shl => Sys2Proof.Machine.execShl s
  | .shr => Sys2Proof.Machine.execShr s
  | .sar => Sys2Proof.Machine.execSar s
  | .rcl => Sys2Proof.Machine.execRcl s
  | .rcr => Sys2Proof.Machine.execRcr s
  | .not => Sys2Proof.Machine.execNot s
  | .neg => Sys2Proof.Machine.execNeg s
  | .swap => Sys2Proof.Machine.execSwap s
  | .push p => Sys2Proof.Machine.execPush p s
  | .pop p => Sys2Proof.Machine.execPop p s
  | .jmp abs => Sys2Proof.Machine.execJmp abs s
  | .call abs => Sys2Proof.Machine.execCall abs s
  | .ret => Sys2Proof.Machine.execRet s
  | .reti => Sys2Proof.Machine.execReti s
  | .bra rel => Sys2Proof.Machine.execBra rel s
  | .jmpi => Sys2Proof.Machine.execJmpi s
  | .calli => Sys2Proof.Machine.execCalli s
  | .pushf => Sys2Proof.Machine.execPushf s
  | .popf => Sys2Proof.Machine.execPopf s
  | .mul => Sys2Proof.Machine.execMul s
  | .div => Sys2Proof.Machine.execDiv s
  | .illegalFB => Sys2Proof.Machine.execIllegalFB s
  | .illegalFC _ => Sys2Proof.Machine.execIllegalFC s

end Sys2Proof.Machine
end

