-- ==== Sys2Proof/Machine/Sequencer.lean ====
section
/-! DEFINITION. What a REF8 step does before it executes an instruction (60_exceptions.md R289 to R293): acceptance,
acknowledge, the halted steps, the bookkeeping at the start of an instruction; and how an instruction is placed where the
next step fetches it. -/

namespace Sys2Proof.Machine

/-- An interrupt is accepted at the start of a step iff IRQ = 1, IE = 1 and IES = 0 (60_exceptions.md R289). -/
def Cpu.accepts (c : Cpu) : Bool := c.irq && c.ie && !c.ies

/-- Acknowledge: trap entry at 0x0008 with the PC of the instruction not yet executed; 6 cycles; IRQ is not changed
(60_exceptions.md R291). -/
def State.acknowledge (s : State) : State :=
  ((s.enterTrap irqEntry s.cpu.pc).charge 6).setKind .irqAck

/-- Wake: the halted state ends without an acknowledge; 1 cycle, no access (60_exceptions.md R290, R293). -/
def State.wake (s : State) : State := ((s.setHalted false).charge 1).setKind .wake

/-- Idle: one halted cycle, no access, nothing but CYC changes (60_exceptions.md R290, R293). -/
def State.idle (s : State) : State := (s.charge 1).setKind .idle

/-- A step with HALTED = 1 (60_exceptions.md R293). -/
def State.haltedStep (s : State) : State :=
  if s.cpu.accepts then s.acknowledge
  else if s.cpu.irq then s.wake
  else s.idle

/-- The start of an instruction after its fetch: IES is cleared before the effect, and the step is Exec(op)
(60_exceptions.md R290). -/
def State.beginExec (s : State) (op : Byte) : State := (s.setIES false).setKind (.exec op)

/-- What a step is about to do. -/
inductive Action where
  /-- There is no step. -/
  | stop (r : Refusal)
  /-- The step executes no instruction and ends in `s`. -/
  | done (s : State)
  /-- The step executes `i` from `s`, the state after fetch. -/
  | run (i : Instr) (s : State)
  deriving DecidableEq, Repr

/-- Fetch, decode and begin the instruction at PC (30_encoding.md R114; 60_exceptions.md R290). -/
def State.startInstr (s : State) : Action :=
  let f := s.fetch
  .run (decodeOp f.op f.b1 f.b2) (f.state.beginExec f.op)

/-- The choice a REF8 step makes (60_exceptions.md R290, R298). -/
def State.planRef8 (s : State) : Action :=
  if s.cpu.halted then .done s.haltedStep
  else if s.cpu.accepts then .done s.acknowledge
  else s.startInstr

/-- A step is defined for a selected variant only (60_exceptions.md R308); REF8 is the one with an instance here. -/
def State.plan (s : State) : Action :=
  match s.cpu.refusal with
  | none => s.clearObs.planRef8
  | some r => .stop r

/-! ## Placing an instruction -/

/-- The bus with a byte that a read at the address gives back: stored in the memory behind it, under a RAM region of one
byte where the map has no RAM or ROM there. -/
def Bus.place (b : Bus) (a : Addr) (v : Byte) : Bus :=
  let stored := { b with mem := b.mem.store a.toNat v }
  match b.kindAt a with
  | .ram => stored
  | .rom => stored
  | .mmio => stored.register { first := a, last := a, kind := .ram }
  | .unmapped => stored.register { first := a, last := a, kind := .ram }

/-- The bus with bytes placed at rising addresses, modulo 2^16. -/
def Bus.placeBytes (b : Bus) (a : Addr) : List Byte → Bus
  | [] => b
  | v :: rest => (b.place a v).placeBytes (a + 1) rest

/-- The CPU about to fetch at its PC: REF8 is selected, it is not halted and no interrupt is accepted. What the fetch does
not need stays as it is. -/
def Cpu.readyToFetch (c : Cpu) : Cpu :=
  { c with variant := ref8Tag, halted := false, irq := c.irq && !c.accepts }

/-- The state with the instruction bits `w` (`nbits` of them, zero above) where the next step fetches (log 9). -/
def State.placeWord (s : State) (nbits w : Nat) : State :=
  { s with cpu := s.cpu.readyToFetch, bus := s.bus.placeBytes s.cpu.pc (wordBytes nbits w) }

end Sys2Proof.Machine
end

