-- ==== Sys2Proof/Machine/Step.lean ====
section
/-! DEFINITION. The step of the machine (60_exceptions.md R290) and the placing of an instruction where it fetches. -/

namespace Sys2Proof.Machine

/-- One step: an acknowledge, a halted cycle or one instruction (60_exceptions.md R290); none without a variant
(60_exceptions.md R308). -/
def step (s : State) : Host.Outcome State Fault Refusal :=
  match s.plan with
  | .stop r => .refused r
  | .done t => .next t
  | .run i t => exec i t

/-- The state with an instruction of the opcode table stored where the next step fetches it (log 9). -/
def State.withFetchWord (s : State) (nbits w : Nat) : State := s.placeWord nbits w

end Sys2Proof.Machine
end

