-- ==== Sys2Proof/Machine/Image.lean ====
section
/-! DEFINITION. The CPU section of a save-state: the 24-byte image of REF8, serialize and deserialize (10_state.md R58 to
R65), and the CPU's two other host operations, interrupt (60_exceptions.md R284) and reset (70_reset_and_hazards.md
R320). -/

namespace Sys2Proof.Machine

/-- Why an image is not loaded (10_state.md R60, R61). -/
inductive LoadError where
  /-- The image's version tag is newer than supported (10_state.md R60). -/
  | versionMismatch
  /-- Structural validation fails (10_state.md R61). -/
  | corruptData
  deriving DecidableEq, Repr

/-- The length of the REF8 image (10_state.md R63). -/
def imageLength : Nat := 24

/-- The image format version (10_state.md R63). -/
def imageVersion : Byte := 0x01

/-- The status byte: bit 0 IE, bit 1 IES, bit 2 HALTED, bit 3 IRQ (10_state.md R63). -/
def statusByte (c : Cpu) : Byte :=
  BitVec.ofNat 8 (c.ie.toNat + 2 * c.ies.toNat + 4 * c.halted.toNat + 8 * c.irq.toNat)

/-- The eight bytes of CYC, least significant first (10_state.md R63). -/
def cycBytes (v : BitVec 64) : List Byte :=
  [v.extractLsb' 0 8, v.extractLsb' 8 8, v.extractLsb' 16 8, v.extractLsb' 24 8,
   v.extractLsb' 32 8, v.extractLsb' 40 8, v.extractLsb' 48 8, v.extractLsb' 56 8]

/-- REF8's `serialize`: the 24 bytes of 10_state.md R63, with the tag and version of REF8 (10_state.md R65). It is called
with REF8 selected (60_exceptions.md R308): State.serialize and AnyCpu.serialize look at the tag first. -/
def Cpu.serialize (c : Cpu) : List Byte :=
  [ref8Tag, imageVersion] ++ c.regs.toList
    ++ [maskFlags c.f, lowByte c.sp, highByte c.sp, lowByte c.pc, highByte c.pc, statusByte c] ++ cycBytes c.cyc

/-- The byte of an image at an offset. -/
def imageByte (b : List Byte) (k : Nat) : Byte := b.getD k 0x00

/-- CYC from offsets 16 to 23, least significant byte first (10_state.md R63). -/
def imageCyc (b : List Byte) : BitVec 64 :=
  imageByte b 23 ++ (imageByte b 22 ++ (imageByte b 21 ++ (imageByte b 20 ++
    (imageByte b 19 ++ (imageByte b 18 ++ (imageByte b 17 ++ imageByte b 16))))))

/-- The CPU state an image of the right form holds (10_state.md R63). -/
def imageCpu (b : List Byte) : Cpu :=
  { regs := Vector.ofFn (fun i => imageByte b (2 + i.val)),
    f := imageByte b 10,
    sp := word16 (imageByte b 12) (imageByte b 11),
    pc := word16 (imageByte b 14) (imageByte b 13),
    ie := (imageByte b 15).getLsbD 0, ies := (imageByte b 15).getLsbD 1,
    halted := (imageByte b 15).getLsbD 2, irq := (imageByte b 15).getLsbD 3,
    cyc := imageCyc b, variant := ref8Tag }

/-- REF8's `deserialize`: the checks of 10_state.md R64 in their order, the first that fails deciding, then the state in full
(10_state.md R59). -/
def Cpu.deserialize (b : List Byte) : Except LoadError Cpu :=
  if b.length ≠ imageLength then .error .corruptData
  else if imageByte b 0 ≠ ref8Tag then .error .corruptData
  else if imageVersion.toNat < (imageByte b 1).toNat then .error .versionMismatch
  else if imageByte b 1 = 0x00 then .error .corruptData
  else if imageByte b 10 &&& 0xF0 ≠ 0x00 then .error .corruptData
  else if imageByte b 15 &&& 0xF0 ≠ 0x00 then .error .corruptData
  else .ok (imageCpu b)

/-- REF8's `interrupt(level)`: IRQ <- level, nothing else (60_exceptions.md R284). -/
def Cpu.interrupt (c : Cpu) (level : Bool) : Cpu := { c with irq := level }

/-- REF8's `reset()`: every field as 10_state.md R50 gives it, the tag unchanged (70_reset_and_hazards.md R320). -/
def Cpu.reset (c : Cpu) : Cpu := Cpu.resetTo c.variant

/-! ## The same operations on the machine: with tag 0x00 they are refused, but for reset (60_exceptions.md R308); with a
console variant's tag the machine has no instance to call (log 7) -/

/-- `interrupt(level)` on the machine: IRQ <- level, between steps, no cycles, no access (60_exceptions.md R284, R308). -/
def State.interrupt (s : State) (level : Bool) : Host.Outcome State Fault Refusal :=
  match s.cpu.refusal with
  | none => .next { s with cpu := s.cpu.interrupt level }
  | some r => .refused r

/-- `serialize` on the machine (10_state.md R65; 60_exceptions.md R308). -/
def State.serialize (s : State) : Except Refusal (List Byte) :=
  match s.cpu.refusal with
  | none => .ok s.cpu.serialize
  | some r => .error r

/-- `deserialize` on the machine, the CPU section of a load alone: the CPU record replaced in full, or the error (10_state.md R59, R64; 60_exceptions.md
R308). -/
def State.deserialize (s : State) (image : List Byte) : Except Refusal (Except LoadError State) :=
  match s.cpu.refusal with
  | none => .ok ((Cpu.deserialize image).map (fun c => { s with cpu := c }))
  | some r => .error r

/-- `reset()` on the machine, the CPU's part of it: no bus access, memory unchanged, no cycles (70_reset_and_hazards.md R320).
DESIGN CHOICE: the rest of the bus is left as it was too, for its reset belongs to other components (log 16); Platform.reset
takes what they make of it. In the pre-load
idle state it leaves the machine as it is, for there is no variant to reset (70_reset_and_hazards.md R322). With a console
variant's tag it is refused: the reset values are that variant's own (93_implementation_defined.md S15; log 7), and
AnyCpu.reset takes them from it. -/
def State.hostReset (s : State) : Host.Outcome State Fault Refusal :=
  match s.cpu.refusal with
  | none => .next { s with cpu := s.cpu.reset }
  | some .preLoadIdle => .next s
  | some r => .refused r

end Sys2Proof.Machine
end

