-- ==== Sys2Proof/Machine/Tables.lean ====
section
/-! DEFINITION. The spec's summary tables over all instructions, as functions of the instruction: who writes which state
(10_state.md R33, R38 to R44), the data accesses (20_memory.md R80), the cost model (70_reset_and_hazards.md R335) and the
trap codes (60_exceptions.md R297). exec does not use them: they are what statements compare it with. -/

namespace Sys2Proof.Machine

/-! ## Who writes which state (10_state.md R33) -/

/-- The instruction may change general register `r`: it is one the table of 10_state.md R33 lists as written. -/
def writesReg (r : RegIdx) : Instr → Bool
  | .mov d _ => d == r
  | .ldi r' _ | .ld r' _ | .ldx r' | .inc r' | .dec r' => r' == r
  | .ldw p _ | .incw p | .decw p | .pop p => pairLow p == r || pairHigh p == r
  | .getsp => pairLow 3 == r || pairHigh 3 == r
  | .add _ | .adc _ | .sub _ | .sbc _ | .and _ | .xor _ | .or _ | .addi _ | .adci _ | .subi _ | .sbci _
  | .andi _ | .xori _ | .ori _ | .shl | .shr | .sar | .rcl | .rcr | .not | .neg | .swap => r == 0
  | .mul | .div => r == 0 || r == 1
  | .nop | .halt | .di | .ei | .swi | .clc | .sec | .cmc | .st _ _ | .stx _ | .ldsp _ | .movsp | .illegal3F
  | .cmp _ | .cmpi _ | .beq _ | .bne _ | .bcs _ | .bcc _ | .bmi _ | .bpl _ | .bvs _ | .bvc _ | .push _ | .jmp _
  | .call _ | .ret | .reti | .bra _ | .jmpi | .calli | .pushf | .popf | .illegalFB | .illegalFC _ => false

/-- The instruction may change SP (10_state.md R33). -/
def writesSP : Instr → Bool
  | .ldsp _ | .movsp | .push _ | .pop _ | .pushf | .popf | .call _ | .calli | .ret | .reti | .swi => true
  | .nop | .halt | .di | .ei | .clc | .sec | .cmc | .ldi _ _ | .ld _ _ | .st _ _ | .ldx _ | .stx _ | .ldw _ _
  | .incw _ | .decw _ | .getsp | .illegal3F | .mov _ _ | .add _ | .adc _ | .sub _ | .sbc _ | .and _ | .xor _
  | .or _ | .cmp _ | .addi _ | .adci _ | .subi _ | .sbci _ | .andi _ | .xori _ | .ori _ | .cmpi _ | .beq _
  | .bne _ | .bcs _ | .bcc _ | .bmi _ | .bpl _ | .bvs _ | .bvc _ | .inc _ | .dec _ | .shl | .shr | .sar | .rcl
  | .rcr | .not | .neg | .swap | .jmp _ | .bra _ | .jmpi | .mul | .div | .illegalFB | .illegalFC _ => false

/-- The instruction may set PC to a target other than `next` (10_state.md R33; 70_reset_and_hazards.md R335). -/
def writesPC : Instr → Bool
  | .beq _ | .bne _ | .bcs _ | .bcc _ | .bmi _ | .bpl _ | .bvs _ | .bvc _ | .bra _ | .jmp _ | .jmpi | .call _
  | .calli | .ret | .reti | .swi => true
  | .nop | .halt | .di | .ei | .clc | .sec | .cmc | .ldi _ _ | .ld _ _ | .st _ _ | .ldx _ | .stx _ | .ldw _ _
  | .incw _ | .decw _ | .ldsp _ | .movsp | .getsp | .illegal3F | .mov _ _ | .add _ | .adc _ | .sub _ | .sbc _
  | .and _ | .xor _ | .or _ | .cmp _ | .addi _ | .adci _ | .subi _ | .sbci _ | .andi _ | .xori _ | .ori _
  | .cmpi _ | .inc _ | .dec _ | .shl | .shr | .sar | .rcl | .rcr | .not | .neg | .swap | .push _ | .pop _
  | .pushf | .popf | .mul | .div | .illegalFB | .illegalFC _ => false

/-- The instruction writes flag C (10_state.md R38). -/
def writesC : Instr → Bool
  | .add _ | .adc _ | .sub _ | .sbc _ | .and _ | .xor _ | .or _ | .cmp _ | .addi _ | .adci _ | .subi _ | .sbci _
  | .andi _ | .xori _ | .ori _ | .cmpi _ | .neg | .shl | .shr | .sar | .rcl | .rcr | .mul | .div | .clc | .sec
  | .cmc | .popf | .reti => true
  | .nop | .halt | .di | .ei | .swi | .ldi _ _ | .ld _ _ | .st _ _ | .ldx _ | .stx _ | .ldw _ _ | .incw _
  | .decw _ | .ldsp _ | .movsp | .getsp | .illegal3F | .mov _ _ | .beq _ | .bne _ | .bcs _ | .bcc _ | .bmi _
  | .bpl _ | .bvs _ | .bvc _ | .inc _ | .dec _ | .not | .swap | .push _ | .pop _ | .jmp _ | .call _ | .ret
  | .bra _ | .jmpi | .calli | .pushf | .illegalFB | .illegalFC _ => false

/-- The instruction writes flag V (10_state.md R39). -/
def writesV : Instr → Bool
  | .add _ | .adc _ | .sub _ | .sbc _ | .and _ | .xor _ | .or _ | .cmp _ | .addi _ | .adci _ | .subi _ | .sbci _
  | .andi _ | .xori _ | .ori _ | .cmpi _ | .inc _ | .dec _ | .neg | .shl | .shr | .sar | .rcl | .rcr | .not
  | .swap | .mul | .div | .popf | .reti => true
  | .nop | .halt | .di | .ei | .swi | .clc | .sec | .cmc | .ldi _ _ | .ld _ _ | .st _ _ | .ldx _ | .stx _
  | .ldw _ _ | .incw _ | .decw _ | .ldsp _ | .movsp | .getsp | .illegal3F | .mov _ _ | .beq _ | .bne _ | .bcs _
  | .bcc _ | .bmi _ | .bpl _ | .bvs _ | .bvc _ | .push _ | .pop _ | .jmp _ | .call _ | .ret | .bra _ | .jmpi
  | .calli | .pushf | .illegalFB | .illegalFC _ => false

/-- The instruction writes flag Z (10_state.md R40). -/
def writesZ : Instr → Bool
  | .add _ | .adc _ | .sub _ | .sbc _ | .and _ | .xor _ | .or _ | .cmp _ | .addi _ | .adci _ | .subi _ | .sbci _
  | .andi _ | .xori _ | .ori _ | .cmpi _ | .inc _ | .dec _ | .neg | .shl | .shr | .sar | .rcl | .rcr | .not
  | .swap | .mul | .div | .incw _ | .decw _ | .popf | .reti => true
  | .nop | .halt | .di | .ei | .swi | .clc | .sec | .cmc | .ldi _ _ | .ld _ _ | .st _ _ | .ldx _ | .stx _
  | .ldw _ _ | .ldsp _ | .movsp | .getsp | .illegal3F | .mov _ _ | .beq _ | .bne _ | .bcs _ | .bcc _ | .bmi _
  | .bpl _ | .bvs _ | .bvc _ | .push _ | .pop _ | .jmp _ | .call _ | .ret | .bra _ | .jmpi | .calli | .pushf
  | .illegalFB | .illegalFC _ => false

/-- The instruction writes flag S (10_state.md R41). -/
def writesS : Instr → Bool
  | .add _ | .adc _ | .sub _ | .sbc _ | .and _ | .xor _ | .or _ | .cmp _ | .addi _ | .adci _ | .subi _ | .sbci _
  | .andi _ | .xori _ | .ori _ | .cmpi _ | .inc _ | .dec _ | .neg | .shl | .shr | .sar | .rcl | .rcr | .not
  | .swap | .mul | .div | .popf | .reti => true
  | .nop | .halt | .di | .ei | .swi | .clc | .sec | .cmc | .ldi _ _ | .ld _ _ | .st _ _ | .ldx _ | .stx _
  | .ldw _ _ | .incw _ | .decw _ | .ldsp _ | .movsp | .getsp | .illegal3F | .mov _ _ | .beq _ | .bne _ | .bcs _
  | .bcc _ | .bmi _ | .bpl _ | .bvs _ | .bvc _ | .push _ | .pop _ | .jmp _ | .call _ | .ret | .bra _ | .jmpi
  | .calli | .pushf | .illegalFB | .illegalFC _ => false

/-- The instruction writes IE (10_state.md R33, R42). -/
def writesIE : Instr → Bool
  | .ei | .di | .reti | .swi => true
  | .nop | .halt | .clc | .sec | .cmc | .ldi _ _ | .ld _ _ | .st _ _ | .ldx _ | .stx _ | .ldw _ _ | .incw _
  | .decw _ | .ldsp _ | .movsp | .getsp | .illegal3F | .mov _ _ | .add _ | .adc _ | .sub _ | .sbc _ | .and _
  | .xor _ | .or _ | .cmp _ | .addi _ | .adci _ | .subi _ | .sbci _ | .andi _ | .xori _ | .ori _ | .cmpi _
  | .beq _ | .bne _ | .bcs _ | .bcc _ | .bmi _ | .bpl _ | .bvs _ | .bvc _ | .inc _ | .dec _ | .shl | .shr | .sar
  | .rcl | .rcr | .not | .neg | .swap | .push _ | .pop _ | .jmp _ | .call _ | .ret | .bra _ | .jmpi | .calli
  | .pushf | .popf | .mul | .div | .illegalFB | .illegalFC _ => false

/-- The instruction's own effect writes IES, after the clearing at its start (10_state.md R33, R43). -/
def writesIES : Instr → Bool
  | .ei | .di | .swi => true
  | .nop | .halt | .clc | .sec | .cmc | .ldi _ _ | .ld _ _ | .st _ _ | .ldx _ | .stx _ | .ldw _ _ | .incw _
  | .decw _ | .ldsp _ | .movsp | .getsp | .illegal3F | .mov _ _ | .add _ | .adc _ | .sub _ | .sbc _ | .and _
  | .xor _ | .or _ | .cmp _ | .addi _ | .adci _ | .subi _ | .sbci _ | .andi _ | .xori _ | .ori _ | .cmpi _
  | .beq _ | .bne _ | .bcs _ | .bcc _ | .bmi _ | .bpl _ | .bvs _ | .bvc _ | .inc _ | .dec _ | .shl | .shr | .sar
  | .rcl | .rcr | .not | .neg | .swap | .push _ | .pop _ | .jmp _ | .call _ | .ret | .reti | .bra _ | .jmpi
  | .calli | .pushf | .popf | .mul | .div | .illegalFB | .illegalFC _ => false

/-- The instruction writes HALTED: HALT sets it (10_state.md R44) and trap entry clears it (60_exceptions.md R292). -/
def writesHalted : Instr → Bool
  | .halt | .swi => true
  | .nop | .di | .ei | .clc | .sec | .cmc | .ldi _ _ | .ld _ _ | .st _ _ | .ldx _ | .stx _ | .ldw _ _ | .incw _
  | .decw _ | .ldsp _ | .movsp | .getsp | .illegal3F | .mov _ _ | .add _ | .adc _ | .sub _ | .sbc _ | .and _
  | .xor _ | .or _ | .cmp _ | .addi _ | .adci _ | .subi _ | .sbci _ | .andi _ | .xori _ | .ori _ | .cmpi _
  | .beq _ | .bne _ | .bcs _ | .bcc _ | .bmi _ | .bpl _ | .bvs _ | .bvc _ | .inc _ | .dec _ | .shl | .shr | .sar
  | .rcl | .rcr | .not | .neg | .swap | .push _ | .pop _ | .jmp _ | .call _ | .ret | .reti | .bra _ | .jmpi
  | .calli | .pushf | .popf | .mul | .div | .illegalFB | .illegalFC _ => false

/-! ## Data accesses (20_memory.md R80) -/

/-- One data access as 20_memory.md R80 lists it. -/
inductive Access where
  /-- A read at an address. -/
  | read (a : Addr)
  /-- A write at an address. -/
  | write (a : Addr)
  deriving DecidableEq, Repr

/-- The access of a bus event. -/
def BusEvent.access : BusEvent → Access
  | .read a _ => .read a
  | .write a _ => .write a

/-- The data accesses an instruction makes after its fetch, in order (20_memory.md R80). -/
def dataAccesses (s : State) : Instr → List Access
  | .ld _ abs => [.read abs]
  | .st _ abs => [.write abs]
  | .ldx _ => [.read s.pointer]
  | .stx _ => [.write s.pointer]
  | .push _ => [.write (s.cpu.sp - 1), .write (s.cpu.sp - 2)]
  | .pop _ => [.read s.cpu.sp, .read (s.cpu.sp + 1)]
  | .pushf => [.write (s.cpu.sp - 1)]
  | .popf => [.read s.cpu.sp]
  | .call _ | .calli => [.write (s.cpu.sp - 1), .write (s.cpu.sp - 2)]
  | .ret => [.read s.cpu.sp, .read (s.cpu.sp + 1)]
  | .reti => [.read s.cpu.sp, .read (s.cpu.sp + 1), .read (s.cpu.sp + 2)]
  | .swi => [.write (s.cpu.sp - 1), .write (s.cpu.sp - 2), .write (s.cpu.sp - 3)]
  | .nop | .halt | .di | .ei | .clc | .sec | .cmc | .ldi _ _ | .ldw _ _ | .incw _ | .decw _ | .ldsp _ | .movsp
  | .getsp | .illegal3F | .mov _ _ | .add _ | .adc _ | .sub _ | .sbc _ | .and _ | .xor _ | .or _ | .cmp _
  | .addi _ | .adci _ | .subi _ | .sbci _ | .andi _ | .xori _ | .ori _ | .cmpi _ | .beq _ | .bne _ | .bcs _
  | .bcc _ | .bmi _ | .bpl _ | .bvs _ | .bvc _ | .inc _ | .dec _ | .shl | .shr | .sar | .rcl | .rcr | .not
  | .neg | .swap | .jmp _ | .bra _ | .jmpi | .mul | .div | .illegalFB | .illegalFC _ => []

/-- The accesses of an interrupt acknowledge (20_memory.md R80; 60_exceptions.md R291). -/
def acknowledgeAccesses (s : State) : List Access :=
  [.write (s.cpu.sp - 1), .write (s.cpu.sp - 2), .write (s.cpu.sp - 3)]

/-! ## The cost model (70_reset_and_hazards.md R335) -/

/-- The instruction is a control transfer from this state: a taken branch, BRA, a jump, a call, a return or SWI
(70_reset_and_hazards.md R335). -/
def transfers (s : State) : Instr → Bool
  | .beq _ => cond 0 s.flags
  | .bne _ => cond 1 s.flags
  | .bcs _ => cond 2 s.flags
  | .bcc _ => cond 3 s.flags
  | .bmi _ => cond 4 s.flags
  | .bpl _ => cond 5 s.flags
  | .bvs _ => cond 6 s.flags
  | .bvc _ => cond 7 s.flags
  | .bra _ | .jmp _ | .jmpi | .call _ | .calli | .ret | .reti | .swi => true
  | .nop | .halt | .di | .ei | .clc | .sec | .cmc | .ldi _ _ | .ld _ _ | .st _ _ | .ldx _ | .stx _ | .ldw _ _
  | .incw _ | .decw _ | .ldsp _ | .movsp | .getsp | .illegal3F | .mov _ _ | .add _ | .adc _ | .sub _ | .sbc _
  | .and _ | .xor _ | .or _ | .cmp _ | .addi _ | .adci _ | .subi _ | .sbci _ | .andi _ | .xori _ | .ori _
  | .cmpi _ | .inc _ | .dec _ | .shl | .shr | .sar | .rcl | .rcr | .not | .neg | .swap | .push _ | .pop _
  | .pushf | .popf | .mul | .div | .illegalFB | .illegalFC _ => false

/-- The internal cycles of an instruction (70_reset_and_hazards.md R335). -/
def internalCycles : Instr → Nat
  | .movsp | .getsp | .incw _ | .decw _ | .illegal3F | .illegalFB | .illegalFC _ => 1
  | .mul => 7
  | .div => 15
  | .nop | .halt | .di | .ei | .swi | .clc | .sec | .cmc | .ldi _ _ | .ld _ _ | .st _ _ | .ldx _ | .stx _
  | .ldw _ _ | .ldsp _ | .mov _ _ | .add _ | .adc _ | .sub _ | .sbc _ | .and _ | .xor _ | .or _ | .cmp _
  | .addi _ | .adci _ | .subi _ | .sbci _ | .andi _ | .xori _ | .ori _ | .cmpi _ | .beq _ | .bne _ | .bcs _
  | .bcc _ | .bmi _ | .bpl _ | .bvs _ | .bvc _ | .inc _ | .dec _ | .shl | .shr | .sar | .rcl | .rcr | .not
  | .neg | .swap | .push _ | .pop _ | .jmp _ | .call _ | .ret | .reti | .bra _ | .jmpi | .calli | .pushf | .popf => 0

/-- The cycles of an instruction by the cost model: one per bus access, its fetch included, one for a control transfer, and
its internal cycles (70_reset_and_hazards.md R335). -/
def modelCycles (s : State) (i : Instr) : Nat :=
  (encode i).length + (dataAccesses s i).length + (transfers s i).toNat + internalCycles i

/-! ## Trap codes (60_exceptions.md R297, R307) -/

/-- The cause code of a step: 1 for an acknowledge, 2 for the execution of SWI (60_exceptions.md R297, R307). -/
def trapCode : StepKind → Option Nat
  | .exec op => if op = 0x04 then some 2 else none
  | .irqAck => some 1
  | .wake => none
  | .idle => none

/-- The step executed a reserved opcode (43_system.md R266; 60_exceptions.md R307). -/
def illegalStep : StepKind → Bool
  | .exec op => op == 0x3F || decide (0xFB ≤ op.toNat)
  | .irqAck => false
  | .wake => false
  | .idle => false

end Sys2Proof.Machine
end

