-- ==== Sys2Proof/Machine/Variants.lean ====
section
/-! DEFINITION. The generic layer: the interface every variant of the CPU has, the contract it must meet (10_state.md R30,
R58 to R62; 60_exceptions.md R280 to R288), REF8 as the one concrete instance, and the CPU as a sum over the variants
(60_exceptions.md R288) with the console variant as an argument (00_scope.md R3, R10; log 7). -/

namespace Sys2Proof.Machine

/-! ## Traces on the bus (20_memory.md R91) -/

/-- The bytes the bus answered, in order. -/
def answersOf : List BusEvent → List Byte
  | [] => []
  | .read _ v :: rest => v :: answersOf rest
  | .write _ _ :: rest => answersOf rest

/-- The addresses read, in order. -/
def readAddresses : List BusEvent → List Addr
  | [] => []
  | .read a _ :: rest => a :: readAddresses rest
  | .write _ _ :: rest => readAddresses rest

/-- The bytes written, in order. -/
def writtenBytes : List BusEvent → List Byte
  | [] => []
  | .read _ _ :: rest => writtenBytes rest
  | .write _ v :: rest => v :: writtenBytes rest

/-- The bus after the accesses of a trace, if it answers each read as the trace says. -/
def Bus.replay (b : Bus) : List BusEvent → Option Bus
  | [] => some b
  | .read a v :: rest => if b.answer a = v then (b.afterRead a).replay rest else none
  | .write a v :: rest => (b.write a v).replay rest

/-- Two traces go the same way until a read at one address is answered differently: every access before is the same. What
comes after may differ in everything, its length included (60_exceptions.md R286). -/
def PartAtAnswer : List BusEvent → List BusEvent → Prop
  | .read a v :: t, .read b w :: u => a = b ∧ (v ≠ w ∨ PartAtAnswer t u)
  | .write a v :: t, .write b w :: u => a = b ∧ v = w ∧ PartAtAnswer t u
  | .read _ _ :: _, .write _ _ :: _ => False
  | .write _ _ :: _, .read _ _ :: _ => False
  | [], _ => False
  | _ :: _, [] => False

/-! ## A variant -/

/-- What a step of a variant did: one of the three things of 00_scope.md R17. -/
inductive VariantStepKind where
  /-- It executed one instruction, fetched and decoded from the bytes `code`. -/
  | exec (code : List Byte)
  /-- It acknowledged one interrupt. -/
  | acknowledge
  /-- It spent a halted cycle; in a lockup, the cycles of its one step. -/
  | halted
  deriving DecidableEq, Repr

/-- The step record of a variant (60_exceptions.md R280, R307). -/
structure VariantStep (σ : Type) where
  /-- The CPU state after the step. -/
  state : σ
  /-- The bus state after the step. -/
  bus : Bus
  /-- The cycles the step returned. -/
  cycles : Nat
  /-- What the step did. -/
  kind : VariantStepKind
  /-- The bus accesses in order. -/
  trace : List BusEvent

/-- The two things an illegal opcode may be defined as (60_exceptions.md R283; 93_implementation_defined.md S1). -/
inductive IllegalTreatment where
  /-- A no-op of at least 1 cycle. -/
  | noOp
  /-- A lockup: every later step is the same and changes nothing but the cycle counter. -/
  | lockup
  deriving DecidableEq, Repr

/-- The interface of a variant: `step`, `interrupt`, serialize and deserialize (60_exceptions.md R288), its reset state, the
five contents its state must have (10_state.md R30), and what the rules for every variant name: the pending latch, the
handler entry, the illegal opcodes, the form of the image. DESIGN CHOICE: the forms in which it shows its contents are the
model's, a list of numbers for the registers and one number each for the program counter, the flags, the interrupt-enable
state and the cycle counter; the source gives no form (log 7). -/
structure Variant (σ : Type) where
  /-- Its tag (10_state.md R47). -/
  tag : Byte
  /-- The states it can be in. -/
  valid : σ → Prop
  /-- The register file as it is fixed: the name and the width in bits of each register (10_state.md R30). -/
  registerFile : List (String × Nat)
  /-- The values of the registers, in the order of `registerFile`. -/
  registers : σ → List Nat
  /-- The program counter: the bus address of the next instruction's first byte (60_exceptions.md R280; log 7). -/
  programCounter : σ → Nat
  /-- The width of the program counter in bits. -/
  programWidth : Nat
  /-- The values the program counter can hold. -/
  programCounterHolds : Nat → Prop
  /-- The flags. -/
  flagBits : σ → Nat
  /-- The values the flags can hold. -/
  flagsHold : Nat → Prop
  /-- The interrupt-enable state, as a number: one bit, a level, or any other finite form (log 7). -/
  interruptEnable : σ → Nat
  /-- The values the interrupt-enable state can hold. -/
  enableHolds : Nat → Prop
  /-- Whether the interrupt input is enabled with a value of the interrupt-enable state. -/
  enables : Nat → Bool
  /-- The cycle counter. -/
  cycleCounter : σ → Nat
  /-- The width of the cycle counter in bits. -/
  cycleWidth : Nat
  /-- The state with another value in the cycle counter and nothing else changed. -/
  withCycles : σ → Nat → σ
  /-- The pending-interrupt state (60_exceptions.md R281, R284). -/
  pending : σ → Bool
  /-- An enabled pending interrupt is masked for now (60_exceptions.md R281). -/
  masked : σ → Bool
  /-- The bytes of the return context an acknowledge pushes, in the order it pushes them (60_exceptions.md R281). -/
  returnContext : σ → List Byte
  /-- The address a return context returns to. -/
  returnAddress : List Byte → Nat
  /-- The addresses an acknowledge reads its handler vector from; none where the vector is fixed. DESIGN CHOICE: they follow
  from the CPU state alone, so a vector looked up by a byte read in the same acknowledge, a device's vector number, is shut
  out; the source does not say how a handler vector is found (60_exceptions.md R281; log 7). -/
  vectorReads : σ → List Addr
  /-- The handler's entry, given the bytes of the vector that were read (60_exceptions.md R281). -/
  handlerEntry : σ → List Byte → Nat
  /-- The treatment of the instruction bytes, if they are an illegal opcode (60_exceptions.md R283). -/
  illegal : σ → List Byte → Option IllegalTreatment
  /-- The effect of the instruction bytes itself writes the program counter: a jump, a taken branch, a repeat. -/
  transfers : σ → List Byte → Bool
  /-- The CPU executes no instruction: it is halted (90_conflicts.md C8). -/
  halted : σ → Bool
  /-- An illegal opcode has locked the CPU up (60_exceptions.md R283). -/
  lockedUp : σ → Bool
  /-- The state after reset, and after a ROM load that selects the variant. DESIGN CHOICE: one state, whatever the state
  before, so a variant whose reset() keeps some registers, or leaves unknown ones that differ, is shut out; the reset values
  are the variant's own (93_implementation_defined.md S15; log 7). -/
  reset : σ
  /-- One step against a bus. -/
  step : σ → Bus → VariantStep σ
  /-- The interrupt input. -/
  interrupt : σ → Bool → σ
  /-- The image of a state. -/
  serialize : σ → List Byte
  /-- The state of an image. -/
  deserialize : List Byte → Except LoadError σ
  /-- The bytes every image of the variant begins with; none if it has no such mark (10_state.md R61). -/
  magic : List Byte
  /-- The version tag of an image, if the image is framed so that it has one (10_state.md R60). -/
  versionTag : List Byte → Option Nat
  /-- The newest image version supported (10_state.md R60). -/
  supportedVersion : Nat
  /-- The structural validation of an image with a supported version (10_state.md R61). -/
  structureHolds : List Byte → Bool

/-- An enabled interrupt is pending and not masked (60_exceptions.md R281). -/
def Variant.accepts {σ : Type} (V : Variant σ) (s : σ) : Bool :=
  V.pending s && V.enables (V.interruptEnable s) && !V.masked s

/-- The value of the program counter `k` bytes on: it wraps at its width (20_memory.md R73). -/
def Variant.codeAt {σ : Type} (V : Variant σ) (s : σ) (k : Nat) : Nat := (V.programCounter s + k) % 2 ^ V.programWidth

/-- The reads of the instruction bytes at the current program counter, in rising order; the bus has 16 address bits
(60_exceptions.md R280; 20_memory.md R71). -/
def Variant.codeReads {σ : Type} (V : Variant σ) (s : σ) (code : List Byte) : List BusEvent :=
  code.mapIdx (fun k v => .read (BitVec.ofNat 16 (V.codeAt s k)) v)

/-- Two states agree in all a variant shows but the pending latch and the cycle counter. -/
structure Variant.Agree {σ : Type} (V : Variant σ) (s t : σ) : Prop where
  /-- The register file. -/
  registers : V.registers t = V.registers s
  /-- The program counter. -/
  programCounter : V.programCounter t = V.programCounter s
  /-- The flags. -/
  flagBits : V.flagBits t = V.flagBits s
  /-- The interrupt-enable state. -/
  interruptEnable : V.interruptEnable t = V.interruptEnable s
  /-- The mask. -/
  masked : V.masked t = V.masked s
  /-- The lockup. -/
  lockedUp : V.lockedUp t = V.lockedUp s

/-- What every variant must meet. What the model reads into the generic rules is log 7. -/
structure Variant.Contract {σ : Type} (V : Variant σ) : Prop where
  /-- A selected variant has a tag other than 0x00 (10_state.md R47). -/
  tag_selected : V.tag ≠ noVariantTag
  /-- Reset gives a state of the variant. -/
  reset_valid : V.valid V.reset
  /-- A step stays among them: every byte sequence at PC has a defined step (60_exceptions.md R283, R287). -/
  step_valid : ∀ s b, V.valid s → V.valid (V.step s b).state
  /-- So does the interrupt input. -/
  interrupt_valid : ∀ s level, V.valid s → V.valid (V.interrupt s level)
  /-- There is a register file; its registers have names of their own, and none has size 0 (10_state.md R30). -/
  register_file : V.registerFile ≠ [] ∧ (V.registerFile.map Prod.fst).Nodup ∧ ∀ r ∈ V.registerFile, 0 < r.2
  /-- In every state each register of the file, and no other, has a value of its fixed size (10_state.md R30). -/
  registers_fixed : ∀ s, V.valid s → List.Forall₂ (fun r v => v < 2 ^ r.2) V.registerFile (V.registers s)
  /-- In every state the other contents have values they can hold (10_state.md R30). -/
  contents_fixed : ∀ s, V.valid s → V.programCounterHolds (V.programCounter s) ∧ V.flagsHold (V.flagBits s) ∧
    V.enableHolds (V.interruptEnable s) ∧ V.cycleCounter s < 2 ^ V.cycleWidth
  /-- A state holds its five contents (10_state.md R30): whatever values they can hold, there is a state that holds these
  together, so none of them is a constant or follows from the others. -/
  contents_held : ∀ rs p f e n, List.Forall₂ (fun r v => v < 2 ^ r.2) V.registerFile rs → V.programCounterHolds p →
    V.flagsHold f → V.enableHolds e → n < 2 ^ V.cycleWidth →
    ∃ s, V.valid s ∧ V.registers s = rs ∧ V.programCounter s = p ∧ V.flagBits s = f ∧ V.interruptEnable s = e ∧
      V.cycleCounter s = n
  /-- Each of them can hold more than one value; the interrupt-enable state can enable and can disable. -/
  contents_several : (∃ p q, p ≠ q ∧ V.programCounterHolds p ∧ V.programCounterHolds q) ∧
    (∃ f g, f ≠ g ∧ V.flagsHold f ∧ V.flagsHold g) ∧ (∃ e, V.enableHolds e ∧ V.enables e = true) ∧
    (∃ e, V.enableHolds e ∧ V.enables e = false) ∧ 0 < V.cycleWidth
  /-- The program counter has a width (20_memory.md R73). -/
  program_width : ∀ p, V.programCounterHolds p → p < 2 ^ V.programWidth
  /-- A step returns at least 1 cycle (60_exceptions.md R280). -/
  progress : ∀ s b, V.valid s → 1 ≤ (V.step s b).cycles
  /-- The cycle counter counts the cycles of a step, modulo its size, which no step exceeds (10_state.md R30; log 7). -/
  cycles_counted : ∀ s b, V.valid s → (V.step s b).cycles < 2 ^ V.cycleWidth ∧
    V.cycleCounter (V.step s b).state = (V.cycleCounter s + (V.step s b).cycles) % 2 ^ V.cycleWidth
  /-- The cycle counter can be replaced and nothing else changes: what it held puts the state back. -/
  cycles_own : ∀ s, V.valid s → V.withCycles s (V.cycleCounter s) = s
  /-- Replacing the cycle counter shows in nothing else. -/
  cycles_alone : ∀ s n, V.Agree s (V.withCycles s n) ∧ V.pending (V.withCycles s n) = V.pending s ∧
    V.halted (V.withCycles s n) = V.halted s
  /-- A step that executes decodes one instruction at the current program counter: it reads each of its bytes there, the
  first before anything else (60_exceptions.md R280; 10_state.md R48). -/
  exec_fetches : ∀ s b code, V.valid s → (V.step s b).kind = .exec code →
    code ≠ [] ∧ (V.codeReads s code).Sublist (V.step s b).trace ∧ (V.step s b).trace.head? = (V.codeReads s code).head?
  /-- It advances the program counter past them, unless the instruction's own effect writes it (60_exceptions.md R280). -/
  exec_advances : ∀ s b code, V.valid s → (V.step s b).kind = .exec code → V.transfers s code = false →
    V.programCounter (V.step s b).state = V.codeAt s code.length
  /-- A step that acknowledges nothing spends a halted cycle exactly when the CPU is halted, and executes an instruction
  otherwise (90_conflicts.md C8; 00_scope.md R17). -/
  halted_iff : ∀ s b, V.valid s → ((V.step s b).kind = .halted ↔ V.halted s = true ∧ V.accepts s = false)
  /-- A halted step decodes nothing and advances nothing: of all a variant shows it may change the cycle counter and end
  the halt, and it accesses nothing (90_conflicts.md C8; log 7). -/
  halted_alone : ∀ s b, V.valid s → (V.step s b).kind = .halted →
    V.Agree s (V.step s b).state ∧ V.pending (V.step s b).state = V.pending s ∧ (V.step s b).trace = []
  /-- A halted CPU keeps returning 1-cycle steps, a lockup apart (60_exceptions.md R283, R285). -/
  halted_cycle : ∀ s b, V.valid s → (V.step s b).kind = .halted → V.lockedUp s = false → (V.step s b).cycles = 1
  /-- A step acknowledges exactly when an enabled interrupt is pending and not masked at its start, and then executes no
  instruction (60_exceptions.md R281, R282). -/
  acknowledge_iff : ∀ s b, V.valid s → ((V.step s b).kind = .acknowledge ↔ V.accepts s = true)
  /-- The acknowledge cost is one constant (60_exceptions.md R281). -/
  acknowledge_constant :
    ∃ n, ∀ s b, V.valid s → (V.step s b).kind = .acknowledge → (V.step s b).cycles = n
  /-- An acknowledge pushes the return context and writes nothing else (60_exceptions.md R281). -/
  acknowledge_pushes : ∀ s b, V.valid s → (V.step s b).kind = .acknowledge →
    writtenBytes (V.step s b).trace = V.returnContext s
  /-- The return context returns to the instruction not executed (60_exceptions.md R281). -/
  context_returns : ∀ s, V.valid s → V.returnAddress (V.returnContext s) = V.programCounter s
  /-- An acknowledge fetches nothing: it reads its handler vector at most (60_exceptions.md R281). DESIGN CHOICE: at addresses
  that follow from the CPU state alone (log 7). -/
  acknowledge_fetches_nothing : ∀ s b, V.valid s → (V.step s b).kind = .acknowledge →
    readAddresses (V.step s b).trace = V.vectorReads s
  /-- An acknowledge jumps to the handler (60_exceptions.md R281). -/
  acknowledge_jumps : ∀ s b, V.valid s → (V.step s b).kind = .acknowledge →
    V.programCounter (V.step s b).state = V.handlerEntry s (answersOf (V.step s b).trace)
  /-- An illegal opcode defined as a no-op changes nothing but the program counter and the cycle counter, of all a variant
  shows but its mask, and accesses the bus for its own bytes alone (60_exceptions.md R283). -/
  illegal_noOp : ∀ s b code, V.valid s → (V.step s b).kind = .exec code → V.illegal s code = some .noOp →
    V.registers (V.step s b).state = V.registers s ∧ V.flagBits (V.step s b).state = V.flagBits s ∧
    V.interruptEnable (V.step s b).state = V.interruptEnable s ∧ V.pending (V.step s b).state = V.pending s ∧
    V.lockedUp (V.step s b).state = V.lockedUp s ∧ V.halted (V.step s b).state = V.halted s ∧
    V.programCounter (V.step s b).state = V.codeAt s code.length ∧ (V.step s b).trace = V.codeReads s code
  /-- An illegal opcode defined as a lockup locks the CPU up (60_exceptions.md R283). -/
  illegal_lockup : ∀ s b code, V.valid s → (V.step s b).kind = .exec code → V.illegal s code = some .lockup →
    V.lockedUp (V.step s b).state = true
  /-- A locked-up CPU is halted for good: it takes no interrupt (60_exceptions.md R283). -/
  lockup_halts : ∀ s, V.valid s → V.lockedUp s = true → V.halted s = true ∧ V.accepts s = false
  /-- A step of a locked-up CPU changes nothing but the cycle counter, and accesses nothing (60_exceptions.md R283;
  93_implementation_defined.md S1). -/
  lockup_changes_cycles : ∀ s b, V.valid s → V.lockedUp s = true →
    (V.step s b).state = V.withCycles s (V.cycleCounter (V.step s b).state) ∧ (V.step s b).bus = b ∧
      (V.step s b).trace = []
  /-- Every later step of a locked-up CPU is the same, whatever the bus and the interrupt input (60_exceptions.md R283). -/
  lockup_repeats : ∀ s b b' level, V.valid s → V.lockedUp s = true →
    (V.step (V.interrupt (V.step s b).state level) b').cycles = (V.step s b).cycles ∧
      (V.step (V.interrupt (V.step s b).state level) b').kind = (V.step s b).kind
  /-- The step uses the bus by the accesses of its trace and in no other way (20_memory.md R70 to R72). -/
  trace_faithful : ∀ s b, V.valid s → b.replay (V.step s b).trace = some (V.step s b).bus
  /-- A step is a function of the CPU state and of the bytes the bus answers, and of nothing else: from one state on two
  buses it makes the same accesses up to a read that the two answer differently, and where there is none, to the end, with the
  same result (60_exceptions.md R286). -/
  determined : ∀ s b₁ b₂, V.valid s →
    ((V.step s b₁).state = (V.step s b₂).state ∧ (V.step s b₁).cycles = (V.step s b₂).cycles ∧
      (V.step s b₁).kind = (V.step s b₂).kind ∧ (V.step s b₁).trace = (V.step s b₂).trace) ∨
    PartAtAnswer (V.step s b₁).trace (V.step s b₂).trace
  /-- `interrupt(level)` sets the pending-interrupt state to the level (60_exceptions.md R284). -/
  interrupt_sets : ∀ s level, V.valid s → V.pending (V.interrupt s level) = level
  /-- It changes nothing else and costs no cycles (10_state.md R30; 60_exceptions.md R284). -/
  interrupt_alone : ∀ s level, V.valid s →
    V.Agree s (V.interrupt s level) ∧ V.halted (V.interrupt s level) = V.halted s ∧
      V.cycleCounter (V.interrupt s level) = V.cycleCounter s
  /-- The level that is already pending leaves the state as it is: the latch is all it writes (10_state.md R30). -/
  interrupt_same : ∀ s, V.valid s → V.interrupt s (V.pending s) = s
  /-- The last level counts; so calling it twice with one level is calling it once (60_exceptions.md R284). -/
  interrupt_last : ∀ s a level, V.valid s → V.interrupt (V.interrupt s a) level = V.interrupt s level
  /-- Save then load gives the state back (10_state.md R62). -/
  image_round_trip : ∀ s, V.valid s → V.deserialize (V.serialize s) = .ok s
  /-- What an image gives is a state of the variant. -/
  image_valid : ∀ b s, V.deserialize b = .ok s → V.valid s
  /-- An image cut short is CorruptData (10_state.md R61). -/
  image_truncated : ∀ s n, V.valid s → n < (V.serialize s).length →
    V.deserialize ((V.serialize s).take n) = .error .corruptData
  /-- Every image a save gives begins with the magic. -/
  image_magic : ∀ s, V.valid s → V.magic <+: V.serialize s
  /-- An image that does not is CorruptData (10_state.md R61). DESIGN CHOICE: whatever its version (log 7). -/
  image_mismatched : ∀ b, ¬ V.magic <+: b → V.deserialize b = .error .corruptData
  /-- An image so broken that it has no version tag is CorruptData (10_state.md R61). -/
  image_unframed : ∀ b, V.versionTag b = none → V.deserialize b = .error .corruptData
  /-- A version tag newer than supported is VersionMismatch (10_state.md R60). DESIGN CHOICE: whatever its structure (log 7). -/
  image_newer : ∀ b v, V.versionTag b = some v → V.supportedVersion < v → V.deserialize b = .error .versionMismatch
  /-- With a supported version, a failed structural validation is CorruptData (10_state.md R61). -/
  image_invalid : ∀ b v, V.versionTag b = some v → v ≤ V.supportedVersion → V.structureHolds b = false →
    V.deserialize b = .error .corruptData
  /-- There is no other reason to fail (60_exceptions.md R287). -/
  image_accepted : ∀ b v, V.versionTag b = some v → v ≤ V.supportedVersion → V.structureHolds b = true →
    ∃ s, V.deserialize b = .ok s

/-- What a console variant must meet: the contract, with a tag from 0x02 to 0xFF (10_state.md R47). -/
structure Variant.ConsoleContract {σ : Type} (V : Variant σ) : Prop extends V.Contract where
  /-- The tag is neither that of no variant nor REF8's. -/
  tag_console : 0x02 ≤ V.tag.toNat

/-! ## REF8 as a variant -/

/-- The states REF8 can be in: its tag, and F with bits 7..4 clear (10_state.md R37, R47). -/
def Cpu.valid (c : Cpu) : Prop := c.variant = ref8Tag ∧ c.f &&& 0xF0 = 0x00

/-- What a step of REF8 did, as a variant's record has it: the bytes of an instruction are the first it read
(30_encoding.md R114), and a wake is a halted cycle too. -/
def ref8Kind (k : Option StepKind) (trace : List BusEvent) : VariantStepKind :=
  match k with
  | some (.exec op) => .exec ((answersOf trace).take (instrLen op))
  | some .irqAck => .acknowledge
  | some .wake => .halted
  | some .idle => .halted
  | none => .halted

/-- The step record of REF8 (60_exceptions.md R307). On a state of REF8 the machine's step always answers a next state
(60_exceptions.md R287). -/
def Cpu.stepRecord (c : Cpu) (b : Bus) : VariantStep Cpu :=
  match step { cpu := c, bus := b, obs := StepObs.empty } with
  | .next t =>
    { state := t.cpu, bus := t.bus, cycles := t.obs.cycles, kind := ref8Kind t.obs.kind t.obs.trace, trace := t.obs.trace }
  | _ => { state := c, bus := b, cycles := 1, kind := .halted, trace := [] }

/-- The register file of REF8: R0 to R7 and SP (10_state.md R31). -/
def ref8Registers : List (String × Nat) :=
  [("R0", 8), ("R1", 8), ("R2", 8), ("R3", 8), ("R4", 8), ("R5", 8), ("R6", 8), ("R7", 8), ("SP", 16)]

/-- The values of that file. -/
def Cpu.registerValues (c : Cpu) : List Nat := c.regs.toList.map (fun v => v.toNat) ++ [c.sp.toNat]

/-- The reserved opcodes of REF8 are no-ops (43_system.md R266). -/
def ref8Illegal (code : List Byte) : Option IllegalTreatment :=
  if code = [0x3F] then some .noOp
  else match code with
    | [op] => if 0xFB ≤ op.toNat then some .noOp else none
    | _ => none

/-- REF8's instructions that write the program counter from a state: the control transfers of 70_reset_and_hazards.md R335. -/
def Cpu.transfers (c : Cpu) (code : List Byte) : Bool :=
  match decode code with
  | .ok (i, _) => Machine.transfers { cpu := c, bus := Bus.reference, obs := StepObs.empty } i
  | .error _ => false

/-- The version byte of an image that passes checks 1 and 2 (10_state.md R64). -/
def ref8VersionTag (b : List Byte) : Option Nat :=
  if b.length = imageLength ∧ imageByte b 0 = ref8Tag then some (imageByte b 1).toNat else none

/-- Checks 4 to 6 (10_state.md R64). -/
def ref8StructureHolds (b : List Byte) : Bool :=
  decide (imageByte b 1 ≠ 0x00) && decide (imageByte b 10 &&& 0xF0 = 0x00) && decide (imageByte b 15 &&& 0xF0 = 0x00)

/-- REF8 version 1, the concrete variant (00_scope.md R3). -/
def ref8Variant : Variant Cpu :=
  { tag := ref8Tag
    valid := Cpu.valid
    registerFile := ref8Registers
    registers := Cpu.registerValues
    programCounter := fun c => c.pc.toNat
    programWidth := 16
    programCounterHolds := fun p => p < 65536
    flagBits := fun c => c.f.toNat
    flagsHold := fun f => f < 16
    interruptEnable := fun c => c.ie.toNat
    enableHolds := fun e => e < 2
    enables := fun e => e == 1
    cycleCounter := fun c => c.cyc.toNat
    cycleWidth := 64
    withCycles := fun c n => { c with cyc := BitVec.ofNat 64 n }
    pending := fun c => c.irq
    masked := fun c => c.ies
    returnContext := fun c => [highByte c.pc, lowByte c.pc, maskFlags c.f]
    returnAddress := fun l => (l.getD 0 0x00).toNat * 256 + (l.getD 1 0x00).toNat
    vectorReads := fun _ => []
    handlerEntry := fun _ _ => irqEntry.toNat
    illegal := fun _ code => ref8Illegal code
    transfers := Cpu.transfers
    halted := fun c => c.halted
    lockedUp := fun _ => false
    reset := Cpu.resetTo ref8Tag
    step := Cpu.stepRecord
    interrupt := Cpu.interrupt
    serialize := Cpu.serialize
    deserialize := Cpu.deserialize
    magic := [ref8Tag]
    versionTag := ref8VersionTag
    supportedVersion := imageVersion.toNat
    structureHolds := ref8StructureHolds }

/-! ## The CPU as a sum over the variants in scope -/

/-- The CPU of a machine whose console variant has the state type σ (60_exceptions.md R288). -/
inductive AnyCpu (σ : Type) where
  /-- No variant: the pre-load idle state, tag 0x00 (60_exceptions.md R308). -/
  | preLoad
  /-- REF8. -/
  | ref8 (c : Cpu)
  /-- The console variant. -/
  | console (c : σ)
  deriving DecidableEq, Repr

/-- The tag of the selected variant (10_state.md R47). -/
def AnyCpu.tag {σ : Type} (V : Variant σ) : AnyCpu σ → Byte
  | .preLoad => noVariantTag
  | .ref8 _ => ref8Tag
  | .console _ => V.tag

/-- The CPU is in a state of its variant. -/
def AnyCpu.valid {σ : Type} (V : Variant σ) : AnyCpu σ → Prop
  | .preLoad => True
  | .ref8 c => ref8Variant.valid c
  | .console c => V.valid c

/-- A step record with the state of one variant seen as a state of the sum. -/
def VariantStep.into {σ τ : Type} (r : VariantStep σ) (inj : σ → τ) : VariantStep τ :=
  { state := inj r.state, bus := r.bus, cycles := r.cycles, kind := r.kind, trace := r.trace }

/-- `step` dispatches on the tag; there is none before a load (60_exceptions.md R288, R308). -/
def AnyCpu.step {σ : Type} (V : Variant σ) (cpu : AnyCpu σ) (b : Bus) : Option (VariantStep (AnyCpu σ)) :=
  match cpu with
  | .preLoad => none
  | .ref8 c => some ((ref8Variant.step c b).into .ref8)
  | .console c => some ((V.step c b).into .console)

/-- `interrupt` dispatches on the tag; it is defined for a selected variant only (60_exceptions.md R308). -/
def AnyCpu.interrupt {σ : Type} (V : Variant σ) (cpu : AnyCpu σ) (level : Bool) : Option (AnyCpu σ) :=
  match cpu with
  | .preLoad => none
  | .ref8 c => some (.ref8 (ref8Variant.interrupt c level))
  | .console c => some (.console (V.interrupt c level))

/-- `serialize` dispatches on the tag (60_exceptions.md R288, R308). -/
def AnyCpu.serialize {σ : Type} (V : Variant σ) : AnyCpu σ → Option (List Byte)
  | .preLoad => none
  | .ref8 c => some (ref8Variant.serialize c)
  | .console c => some (V.serialize c)

/-- `deserialize` dispatches on the tag of the live CPU; the image replaces its state in full (10_state.md R59;
60_exceptions.md R288). -/
def AnyCpu.deserialize {σ : Type} (V : Variant σ) (cpu : AnyCpu σ) (image : List Byte) :
    Option (Except LoadError (AnyCpu σ)) :=
  match cpu with
  | .preLoad => none
  | .ref8 _ => some ((ref8Variant.deserialize image).map .ref8)
  | .console _ => some ((V.deserialize image).map .console)

/-- `reset()` dispatches on the tag; in the pre-load idle state it has no effect (70_reset_and_hazards.md R322). DESIGN CHOICE:
a console variant's reset() gives its one reset state, whatever the state before (log 7). -/
def AnyCpu.reset {σ : Type} (V : Variant σ) : AnyCpu σ → AnyCpu σ
  | .preLoad => .preLoad
  | .ref8 _ => .ref8 ref8Variant.reset
  | .console _ => .console V.reset

end Sys2Proof.Machine
end

