-- ==== Sys2Proof/Machine/HostCalls.lean ====
section
/-! DEFINITION. The host's calls as far as they touch the CPU (70_reset_and_hazards.md R320 to R324) and the scheduler's
calls into it (60_exceptions.md R284, R285, R299). The levels, what other components make of the bus between steps, and
the bus a ROM load, a reset or a load leaves belong to other components: they are inputs here (log 8, 16, 17). -/

namespace Sys2Proof.Machine

/-- The platform around the block: a CPU and the bus. -/
structure Platform (σ : Type) where
  /-- The CPU of the selected variant. -/
  cpu : AnyCpu σ
  /-- The bus state. -/
  bus : Bus
  deriving DecidableEq, Repr

/-- Why a host call fails (70_reset_and_hazards.md R323). -/
inductive HostError where
  /-- The call is refused in the pre-load idle state (60_exceptions.md R308). -/
  | refused
  /-- `InvalidRom` (70_reset_and_hazards.md R321). -/
  | invalidRom
  /-- `VersionMismatch` or `CorruptData` (10_state.md R60, R61). -/
  | load (e : LoadError)
  deriving DecidableEq, Repr

/-- The machine before any load: tag 0x00 (60_exceptions.md R308). -/
def Platform.fresh (σ : Type) (bus : Bus) : Platform σ := { cpu := .preLoad, bus := bus }

/-- `loadRom(bytes)` (70_reset_and_hazards.md R321): the variant that `selectVariant` names, in its reset state, on the bus
the platform builds from the ROM; with none, or a tag no variant in scope has (log 13), InvalidRom and nothing changed. -/
def Platform.loadRom {σ : Type} (V : Variant σ) (selectVariant : List Byte → Option Byte) (rom : List Byte) (romBus : Bus)
    (m : Platform σ) : Option HostError × Platform σ :=
  match selectVariant rom with
  | none => (some .invalidRom, m)
  | some t =>
    if t = ref8Tag then (none, { cpu := .ref8 ref8Variant.reset, bus := romBus })
    else if t = V.tag then (none, { cpu := .console V.reset, bus := romBus })
    else (some .invalidRom, m)

/-- `reset()` (70_reset_and_hazards.md R320, R322): the CPU in its reset state, and the bus as its own reset and that of the
other components leave it; it never fails. What the devices, the region map and the last byte read hold after it is a
parameter of the bus (93_implementation_defined.md S14): `others`, an input (log 16). -/
def Platform.reset {σ : Type} (V : Variant σ) (others : Bus → Bus) (m : Platform σ) : Platform σ :=
  { cpu := m.cpu.reset V, bus := others m.bus }

/-- `setInput(state)`: a device's state, not the CPU's (70_reset_and_hazards.md R323). -/
def Platform.setInput {σ : Type} (dev : Nat) (m : Platform σ) : Platform σ := { m with bus := { m.bus with dev := dev } }

/-- `save()`: the CPU section of the blob (10_state.md R58; 70_reset_and_hazards.md R323). -/
def Platform.save {σ : Type} (V : Variant σ) (m : Platform σ) : Except HostError (List Byte) :=
  match m.cpu.serialize V with
  | none => .error .refused
  | some image => .ok image

/-- `load(blob)`: the CPU section, atomic with the other sections (10_state.md R59; 70_reset_and_hazards.md R323): the CPU and
the bus are replaced together, or the machine stays as it was and the call fails. What the other sections give, the bus they
hold or an error, is the input `others` (log 17). DESIGN CHOICE: where both fail, the CPU section's error is the one given
(log 17). -/
def Platform.load {σ : Type} (V : Variant σ) (image : List Byte) (others : Except LoadError Bus) (m : Platform σ) :
    Option HostError × Platform σ :=
  match m.cpu.deserialize V image, others with
  | none, _ => (some .refused, m)
  | some (.error e), _ => (some (.load e), m)
  | some (.ok _), .error e => (some (.load e), m)
  | some (.ok cpu), .ok bus => (none, { cpu := cpu, bus := bus })

/-! ## The scheduler's calls -/

/-- An interrupt source as the scheduler sees it: requested and enabled at its device (60_exceptions.md R299). -/
structure IrqSource where
  /-- The device requests. -/
  requested : Bool
  /-- The device's own enable bit. -/
  enabled : Bool
  deriving DecidableEq, Repr

/-- `level = OR over sources (requested and enabled at the device)` (60_exceptions.md R299). -/
def irqLevel (sources : List IrqSource) : Bool := sources.any (fun x => x.requested && x.enabled)

/-- What the other components do in one turn of the scheduler: their requests before the step, and what they make of the
bus when they are ticked after it by the cycles the step returned (60_exceptions.md R285, R299; 20_memory.md R85). The spec
does not say what a component ticked between steps may change: `tick` may change anything of the bus, the bytes of RAM by
another master included (20_memory.md R90), and the region map, by a mapper, and the device state (log 8). -/
structure Turn where
  /-- The interrupt sources. -/
  sources : List IrqSource
  /-- The bus after the components are ticked by a number of cycles. -/
  tick : Nat → Bus → Bus

/-- One turn of the scheduler: `interrupt(level)`, then `step()`, then the tick of the other components by the same cycle
count (60_exceptions.md R285, R299); the cycles the step returned and the platform after it, or none before a load. -/
def Platform.turn {σ : Type} (V : Variant σ) (t : Turn) (m : Platform σ) : Option (Nat × Platform σ) :=
  match m.cpu.interrupt V (irqLevel t.sources) with
  | none => none
  | some cpu =>
    match cpu.step V m.bus with
    | none => none
    | some r => some (r.cycles, { cpu := r.state, bus := t.tick r.cycles r.bus })

/-- The turns of a frame in order, with the sum of their cycles. -/
def Platform.turns {σ : Type} (V : Variant σ) : List Turn → Platform σ → Option (Nat × Platform σ)
  | [], m => some (0, m)
  | t :: rest, m =>
    match m.turn V t with
    | none => none
    | some (n, m') =>
      match Platform.turns V rest m' with
      | none => none
      | some (k, m'') => some (n + k, m'')

/-- `runFrame()`: zero or more turns, until video signals frame-complete (60_exceptions.md R285; 70_reset_and_hazards.md
R323); how many is video's matter. Refused before a load. -/
def Platform.runFrame {σ : Type} (V : Variant σ) (frame : List Turn) (m : Platform σ) :
    Except HostError (Nat × Platform σ) :=
  match m.cpu with
  | .preLoad => .error .refused
  | _ =>
    match m.turns V frame with
    | none => .error .refused
    | some r => .ok r

/-! ## A platform with two CPUs (60_exceptions.md R304) -/

/-- Two instances of the block, each with its own state and variant (60_exceptions.md R304). DESIGN CHOICE: both see one
address map. The spec says that they communicate only through bus addresses, not that an address means the same to both;
the model gives both one Bus with one region map (log 15). -/
structure TwoCpus (σ τ : Type) where
  /-- The first CPU. -/
  first : AnyCpu σ
  /-- The second CPU. -/
  second : AnyCpu τ
  /-- The bus both use. -/
  bus : Bus
  deriving DecidableEq, Repr

/-- A turn of the first CPU: the second keeps its state (60_exceptions.md R304). Whose turn it is, the spec leaves open: an
input (log 8). -/
def TwoCpus.turnFirst {σ τ : Type} (V : Variant σ) (t : Turn) (m : TwoCpus σ τ) : Option (Nat × TwoCpus σ τ) :=
  (Platform.turn V t { cpu := m.first, bus := m.bus }).map
    (fun r => (r.1, { first := r.2.cpu, second := m.second, bus := r.2.bus }))

/-- A turn of the second CPU: the first keeps its state (60_exceptions.md R304). -/
def TwoCpus.turnSecond {σ τ : Type} (W : Variant τ) (t : Turn) (m : TwoCpus σ τ) : Option (Nat × TwoCpus σ τ) :=
  (Platform.turn W t { cpu := m.second, bus := m.bus }).map
    (fun r => (r.1, { first := m.first, second := r.2.cpu, bus := r.2.bus }))

/-- A test run is over: HALTED = 1, IE = 0 and IRQ = 0 (70_reset_and_hazards.md R324). -/
def Cpu.runOver (c : Cpu) : Bool := c.halted && !c.ie && !c.irq

end Sys2Proof.Machine
end

