-- ==== Sys2Proof/Safety.lean ====
section
/-! DEFINITION. What statements about runs are made in: the invariant of the states REF8 can be in, a safe state, and the
form of a next state that changes the CPU record alone. -/

namespace Sys2Proof.Machine

/-- What holds in every state that execution reaches: REF8 is selected (10_state.md R47), F has bits 7..4 clear
(10_state.md R37), HALTED and IES are not both set (60_exceptions.md R290), and memory has its canonical form. -/
abbrev State.inv (s : State) : Prop :=
  s.cpu.variant = ref8Tag ∧ s.cpu.f &&& 0xF0 = 0x00 ∧ ¬(s.cpu.halted = true ∧ s.cpu.ies = true) ∧ s.bus.mem.wf

/-- The machine has a step from this state (60_exceptions.md R287). -/
def State.safe (s : State) : Prop := ∃ t, step s = .next t

/-- The state after an instruction that accesses nothing: the CPU record `c` with `n` cycles added to CYC; the bus and the
rest of the observations as in `s`. -/
def State.afterQuiet (s : State) (c : Cpu) (n : Nat) : State :=
  { s with cpu := { c with cyc := s.cpu.cyc + BitVec.ofNat 64 n }, obs := { s.obs with cycles := n } }

/-- The state after an instruction with bus accesses: the CPU record `c` with `n` cycles added to CYC, the bus `b`, and the
accesses `accesses` added to the trace. -/
def State.afterAccess (s : State) (c : Cpu) (n : Nat) (b : Bus) (accesses : List BusEvent) : State :=
  { cpu := { c with cyc := s.cpu.cyc + BitVec.ofNat 64 n }, bus := b,
    obs := { s.obs with cycles := n, trace := s.obs.trace ++ accesses } }

/-- The state after a relative branch: 3 cycles and the signed offset added to the address after it, modulo 2^16, if it is
taken; 2 cycles and nothing else if not (30_encoding.md R105; 42_control_transfer.md R233). -/
def State.afterBranch (s : State) (taken : Bool) (rel : Byte) : State :=
  if taken then s.afterQuiet { s.cpu with pc := BitVec.ofInt 16 ((s.cpu.pc.toNat : Int) + rel.toInt) } 3
  else s.afterQuiet s.cpu 2

/-! ## Results and flags in terms of integers -/

/-- A flag byte with bits 7..4 clear whose flags C, V, Z, S hold exactly under the given conditions (10_state.md R36,
R37). -/
def FlagsAre (f : Byte) (c v z s : Prop) : Prop :=
  f &&& 0xF0 = 0x00 ∧ (bitC f = true ↔ c) ∧ (bitV f = true ↔ v) ∧ (bitZ f = true ↔ z) ∧ (bitS f = true ↔ s)

/-- An integer is outside the range of a signed byte: two's complement overflow (10_state.md R39). -/
def OutsideByte (n : Int) : Prop := n < -128 ∨ 127 < n

/-- `x` and `f` are the sum of two bytes and a carry, and its flags: C the carry out, V signed overflow, Z the result is
zero, S its bit 7 (40_alu.md R130). -/
def IsSum (a b : Byte) (cin : Bool) (x f : Byte) : Prop :=
  x.toNat = (a.toNat + b.toNat + cin.toNat) % 256 ∧
  FlagsAre f (255 < a.toNat + b.toNat + cin.toNat) (OutsideByte (a.toInt + b.toInt + (cin.toNat : Int)))
    (x.toNat = 0) (128 ≤ x.toNat)

/-- `x` and `f` are the difference of two bytes and a borrow, and its flags: C the borrow, V signed overflow, Z the result
is zero, S its bit 7 (40_alu.md R131). -/
def IsDifference (a b : Byte) (bin : Bool) (x f : Byte) : Prop :=
  (x.toNat : Int) = ((a.toNat : Int) - (b.toNat : Int) - (bin.toNat : Int)) % 256 ∧
  FlagsAre f (a.toNat < b.toNat + bin.toNat) (OutsideByte (a.toInt - b.toInt - (bin.toNat : Int)))
    (x.toNat = 0) (128 ≤ x.toNat)

/-- `x` and `f` are a bitwise operation of two bytes, and its flags: C and V clear, Z and S from the result (40_alu.md
R132). -/
def IsBitwise (op : Bool → Bool → Bool) (a b x f : Byte) : Prop :=
  (∀ k, k < 8 → x.getLsbD k = op (a.getLsbD k) (b.getLsbD k)) ∧
  FlagsAre f False False (x.toNat = 0) (128 ≤ x.toNat)

end Sys2Proof.Machine
end

