-- ==== Sys2Proof/Certificates/Slice0/Obligations.lean ====
section
/-! DEFINITION. The statements for the provers. A result statement gives the whole next state: what is not named in it is
as before. In a statement about exec, PC is already the address after the instruction (60_exceptions.md R290; log 11). -/

open Sys2Proof Sys2Proof.Machine

/-- O1. Decoding the encoding of any well-formed instruction gives the instruction back (30_encoding.md R100,
30_encoding.md R101, 30_encoding.md R106, 30_encoding.md R110, 30_encoding.md R113). -/
def Obligations.DecodeOfEncode : Prop :=
  ∀ (i : Instr) (rest : List Byte), i.wellFormed = true → decode (encode i ++ rest) = .ok (i, rest)

/-- O2. What decoding reads is well-formed and encodes back to the bytes consumed (30_encoding.md R100,
30_encoding.md R112, 30_encoding.md R113, 30_encoding.md R115). -/
def Obligations.EncodeOfDecode : Prop :=
  (∀ (bytes rest : List Byte) (i : Instr), decode bytes = .ok (i, rest) → i.wellFormed = true ∧ encode i ++ rest = bytes) ∧
  (∀ (op : Byte) (more : List Byte), instrLen op ≤ more.length + 1 → ∃ i rest, decode (op :: more) = .ok (i, rest))

/-- O3. Every opcode byte is in exactly one row of the opcode map, the row of the instruction it decodes to
(30_encoding.md R110, 30_encoding.md R113). -/
def Obligations.OpcodeMapPartition : Prop :=
  opcodeMap.length = 70 ∧
  ∀ op b1 b2 : Byte, ∃ row,
    opcodeMap[(decodeOp op b1 b2).row]? = some row ∧ row.has op = true ∧
    row.length = (encode (decodeOp op b1 b2)).length ∧
    ∀ k other, opcodeMap[k]? = some other → other.has op = true → k = (decodeOp op b1 b2).row

/-- O4. The length of an instruction follows from its opcode byte (30_encoding.md R112). -/
def Obligations.InstructionLength : Prop :=
  ∀ op b1 b2 : Byte,
    (encode (decodeOp op b1 b2)).head? = some op ∧
    (encode (decodeOp op b1 b2)).length =
      (if 0x08 ≤ op.toNat ∧ op.toNat ≤ 0x0F ∨ 0xC0 ≤ op.toNat ∧ op.toNat ≤ 0xCF ∨ op = 0xF4 then 2
       else if 0x10 ≤ op.toNat ∧ op.toNat ≤ 0x1F ∨ 0x30 ≤ op.toNat ∧ op.toNat ≤ 0x33 ∨ op = 0x3C ∨ op = 0xF0 ∨ op = 0xF1
         then 3
       else 1)

/-- O5. Words written out from the spec's encodings decode to their instructions (30_encoding.md R101,
30_encoding.md R110). -/
def Obligations.DecodedWords : Prop :=
  decodeTableWord 8 0x4A = some (.mov 1 2) ∧ decodeTableWord 16 0x3C0D = some (.ldi 5 0x3C) ∧
  decodeTableWord 24 0x800012 = some (.ld 2 0x8000) ∧ decodeTableWord 24 0x80011B = some (.st 3 0x8001) ∧
  decodeTableWord 8 0x20 = some (.ldx 0) ∧ decodeTableWord 24 0xC00033 = some (.ldw 3 0xC000) ∧
  decodeTableWord 8 0x37 = some (.incw 3) ∧ decodeTableWord 24 0xE0003C = some (.ldsp 0xE000) ∧
  decodeTableWord 8 0x81 = some (.add 1) ∧ decodeTableWord 16 0x80C0 = some (.addi 0x80) ∧
  decodeTableWord 16 0xF0C8 = some (.beq 0xF0) ∧ decodeTableWord 8 0xD3 = some (.inc 3) ∧
  decodeTableWord 8 0xE0 = some .shl ∧ decodeTableWord 8 0xE9 = some (.push 1) ∧
  decodeTableWord 24 0x1234F0 = some (.jmp 0x1234) ∧ decodeTableWord 16 0x10F4 = some (.bra 0x10) ∧
  decodeTableWord 8 0xF9 = some .mul ∧ decodeTableWord 8 0x04 = some .swi ∧
  decodeTableWord 8 0xFF = some (.illegalFC 0xFF)

/-- O6. ADD, ADC, ADDI, ADCI: encoding, sum, flags, cycles, and nothing else changed (40_alu.md R130, 40_alu.md
R134, 40_alu.md R135, 40_alu.md R142, 40_alu.md R143). -/
def Obligations.AddFamilyResults : Prop :=
  ∀ s : State,
    (∀ r : RegIdx, encode (.add r) = [BitVec.ofNat 8 (0x80 + r.val)] ∧
      ∃ x f, IsSum (s.reg 0) (s.reg r) false x f ∧
        exec (.add r) s = .next (s.afterQuiet { s.cpu with regs := s.cpu.regs.set 0 x, f := f } 1)) ∧
    (∀ r : RegIdx, encode (.adc r) = [BitVec.ofNat 8 (0x88 + r.val)] ∧
      ∃ x f, IsSum (s.reg 0) (s.reg r) s.flagC x f ∧
        exec (.adc r) s = .next (s.afterQuiet { s.cpu with regs := s.cpu.regs.set 0 x, f := f } 1)) ∧
    (∀ imm : Byte, encode (.addi imm) = [0xC0, imm] ∧
      ∃ x f, IsSum (s.reg 0) imm false x f ∧
        exec (.addi imm) s = .next (s.afterQuiet { s.cpu with regs := s.cpu.regs.set 0 x, f := f } 2)) ∧
    (∀ imm : Byte, encode (.adci imm) = [0xC1, imm] ∧
      ∃ x f, IsSum (s.reg 0) imm s.flagC x f ∧
        exec (.adci imm) s = .next (s.afterQuiet { s.cpu with regs := s.cpu.regs.set 0 x, f := f } 2))

/-- O7. SUB, SBC, CMP, SUBI, SBCI, CMPI: encoding, difference, borrow, flags, cycles, frame (40_alu.md R131,
40_alu.md R136, 40_alu.md R137, 40_alu.md R141, 40_alu.md R144, 40_alu.md R145, 40_alu.md R149). -/
def Obligations.SubFamilyResults : Prop :=
  ∀ s : State,
    (∀ r : RegIdx, encode (.sub r) = [BitVec.ofNat 8 (0x90 + r.val)] ∧
      ∃ x f, IsDifference (s.reg 0) (s.reg r) false x f ∧
        exec (.sub r) s = .next (s.afterQuiet { s.cpu with regs := s.cpu.regs.set 0 x, f := f } 1)) ∧
    (∀ r : RegIdx, encode (.sbc r) = [BitVec.ofNat 8 (0x98 + r.val)] ∧
      ∃ x f, IsDifference (s.reg 0) (s.reg r) s.flagC x f ∧
        exec (.sbc r) s = .next (s.afterQuiet { s.cpu with regs := s.cpu.regs.set 0 x, f := f } 1)) ∧
    (∀ r : RegIdx, encode (.cmp r) = [BitVec.ofNat 8 (0xB8 + r.val)] ∧
      ∃ x f, IsDifference (s.reg 0) (s.reg r) false x f ∧
        exec (.cmp r) s = .next (s.afterQuiet { s.cpu with f := f } 1)) ∧
    (∀ imm : Byte, encode (.subi imm) = [0xC2, imm] ∧
      ∃ x f, IsDifference (s.reg 0) imm false x f ∧
        exec (.subi imm) s = .next (s.afterQuiet { s.cpu with regs := s.cpu.regs.set 0 x, f := f } 2)) ∧
    (∀ imm : Byte, encode (.sbci imm) = [0xC3, imm] ∧
      ∃ x f, IsDifference (s.reg 0) imm s.flagC x f ∧
        exec (.sbci imm) s = .next (s.afterQuiet { s.cpu with regs := s.cpu.regs.set 0 x, f := f } 2)) ∧
    (∀ imm : Byte, encode (.cmpi imm) = [0xC7, imm] ∧
      ∃ x f, IsDifference (s.reg 0) imm false x f ∧
        exec (.cmpi imm) s = .next (s.afterQuiet { s.cpu with f := f } 2))

/-- O8. AND, XOR, OR, ANDI, XORI, ORI: encoding, bitwise result, flags, cycles, frame (40_alu.md R132, 40_alu.md
R138, 40_alu.md R139, 40_alu.md R140, 40_alu.md R146, 40_alu.md R147, 40_alu.md R148). -/
def Obligations.LogicFamilyResults : Prop :=
  ∀ s : State,
    (∀ r : RegIdx, encode (.and r) = [BitVec.ofNat 8 (0xA0 + r.val)] ∧
      ∃ x f, IsBitwise Bool.and (s.reg 0) (s.reg r) x f ∧
        exec (.and r) s = .next (s.afterQuiet { s.cpu with regs := s.cpu.regs.set 0 x, f := f } 1)) ∧
    (∀ r : RegIdx, encode (.xor r) = [BitVec.ofNat 8 (0xA8 + r.val)] ∧
      ∃ x f, IsBitwise Bool.xor (s.reg 0) (s.reg r) x f ∧
        exec (.xor r) s = .next (s.afterQuiet { s.cpu with regs := s.cpu.regs.set 0 x, f := f } 1)) ∧
    (∀ r : RegIdx, encode (.or r) = [BitVec.ofNat 8 (0xB0 + r.val)] ∧
      ∃ x f, IsBitwise Bool.or (s.reg 0) (s.reg r) x f ∧
        exec (.or r) s = .next (s.afterQuiet { s.cpu with regs := s.cpu.regs.set 0 x, f := f } 1)) ∧
    (∀ imm : Byte, encode (.andi imm) = [0xC4, imm] ∧
      ∃ x f, IsBitwise Bool.and (s.reg 0) imm x f ∧
        exec (.andi imm) s = .next (s.afterQuiet { s.cpu with regs := s.cpu.regs.set 0 x, f := f } 2)) ∧
    (∀ imm : Byte, encode (.xori imm) = [0xC5, imm] ∧
      ∃ x f, IsBitwise Bool.xor (s.reg 0) imm x f ∧
        exec (.xori imm) s = .next (s.afterQuiet { s.cpu with regs := s.cpu.regs.set 0 x, f := f } 2)) ∧
    (∀ imm : Byte, encode (.ori imm) = [0xC6, imm] ∧
      ∃ x f, IsBitwise Bool.or (s.reg 0) imm x f ∧
        exec (.ori imm) s = .next (s.afterQuiet { s.cpu with regs := s.cpu.regs.set 0 x, f := f } 2))

/-- O9. After CMP, C is the unsigned order, Z equality, and S different from V the signed order (40_alu.md R141,
40_alu.md R167). -/
def Obligations.CompareOrders : Prop :=
  ∀ (s : State) (r : RegIdx), ∃ t, exec (.cmp r) s = .next t ∧
    (t.flagC = true ↔ (s.reg 0).toNat < (s.reg r).toNat) ∧
    (t.flagZ = true ↔ s.reg 0 = s.reg r) ∧
    (t.flagS ≠ t.flagV ↔ (s.reg 0).toInt < (s.reg r).toInt)

/-- O10. ADDI then ADCI add 16-bit numbers, the carry passing through C (40_alu.md R143, 40_alu.md R167). -/
def Obligations.ChainedAddition : Prop :=
  ∀ (s : State) (hi0 lo hi : Byte), ∃ t u,
    exec (.addi lo) s = .next t ∧ exec (.adci hi) (t.setReg 0 hi0) = .next u ∧
    (u.reg 0).toNat * 256 + (t.reg 0).toNat =
      ((hi0.toNat * 256 + (s.reg 0).toNat) + (hi.toNat * 256 + lo.toNat)) % 65536 ∧
    (u.flagC = true ↔ 65536 ≤ (hi0.toNat * 256 + (s.reg 0).toNat) + (hi.toNat * 256 + lo.toNat))

/-- O11. INC, DEC: one register stepped modulo 256, V, Z, S set, C kept, nothing else changed (40_alu.md R150,
40_alu.md R151). -/
def Obligations.IncDecResults : Prop :=
  ∀ s : State,
    (∀ r : RegIdx, encode (.inc r) = [BitVec.ofNat 8 (0xD0 + r.val)] ∧
      ∃ x f, x.toNat = ((s.reg r).toNat + 1) % 256 ∧
        FlagsAre f (s.flagC = true) (OutsideByte ((s.reg r).toInt + 1)) (x.toNat = 0) (128 ≤ x.toNat) ∧
        exec (.inc r) s = .next (s.afterQuiet { s.cpu with regs := s.cpu.regs.set r.val x, f := f } 1)) ∧
    (∀ r : RegIdx, encode (.dec r) = [BitVec.ofNat 8 (0xD8 + r.val)] ∧
      ∃ x f, x.toNat = ((s.reg r).toNat + 255) % 256 ∧
        FlagsAre f (s.flagC = true) (OutsideByte ((s.reg r).toInt - 1)) (x.toNat = 0) (128 ≤ x.toNat) ∧
        exec (.dec r) s = .next (s.afterQuiet { s.cpu with regs := s.cpu.regs.set r.val x, f := f } 1))

/-- O12. SHL, SHR, SAR, RCL, RCR: result, shifted-out bit in C, V clear, Z and S, nothing else changed (40_alu.md
R152, 40_alu.md R153, 40_alu.md R154, 40_alu.md R155, 40_alu.md R156). -/
def Obligations.ShiftResults : Prop :=
  ∀ s : State,
    (encode .shl = [0xE0] ∧
      ∃ x f, x.toNat = 2 * (s.reg 0).toNat % 256 ∧ FlagsAre f (128 ≤ (s.reg 0).toNat) False (x.toNat = 0) (128 ≤ x.toNat) ∧
        exec .shl s = .next (s.afterQuiet { s.cpu with regs := s.cpu.regs.set 0 x, f := f } 1)) ∧
    (encode .shr = [0xE1] ∧
      ∃ x f, x.toNat = (s.reg 0).toNat / 2 ∧ FlagsAre f ((s.reg 0).toNat % 2 = 1) False (x.toNat = 0) (128 ≤ x.toNat) ∧
        exec .shr s = .next (s.afterQuiet { s.cpu with regs := s.cpu.regs.set 0 x, f := f } 1)) ∧
    (encode .sar = [0xE2] ∧
      ∃ x f, x.toInt = (s.reg 0).toInt / 2 ∧ FlagsAre f ((s.reg 0).toNat % 2 = 1) False (x.toNat = 0) (128 ≤ x.toNat) ∧
        exec .sar s = .next (s.afterQuiet { s.cpu with regs := s.cpu.regs.set 0 x, f := f } 1)) ∧
    (encode .rcl = [0xE3] ∧
      ∃ x f, 256 * (bitC f).toNat + x.toNat = 2 * (s.reg 0).toNat + s.flagC.toNat ∧
        FlagsAre f (128 ≤ (s.reg 0).toNat) False (x.toNat = 0) (128 ≤ x.toNat) ∧
        exec .rcl s = .next (s.afterQuiet { s.cpu with regs := s.cpu.regs.set 0 x, f := f } 1)) ∧
    (encode .rcr = [0xE4] ∧
      ∃ x f, 2 * x.toNat + (bitC f).toNat = (s.reg 0).toNat + 256 * s.flagC.toNat ∧
        FlagsAre f ((s.reg 0).toNat % 2 = 1) False (x.toNat = 0) (128 ≤ x.toNat) ∧
        exec .rcr s = .next (s.afterQuiet { s.cpu with regs := s.cpu.regs.set 0 x, f := f } 1))

/-- O13. NOT, NEG, SWAP: result and flags, nothing else changed (40_alu.md R157, 40_alu.md R158, 40_alu.md R159). -/
def Obligations.UnaryResults : Prop :=
  ∀ s : State,
    (encode .not = [0xE5] ∧
      ∃ x f, x.toNat = 255 - (s.reg 0).toNat ∧ FlagsAre f (s.flagC = true) False (x.toNat = 0) (128 ≤ x.toNat) ∧
        exec .not s = .next (s.afterQuiet { s.cpu with regs := s.cpu.regs.set 0 x, f := f } 1)) ∧
    (encode .neg = [0xE6] ∧
      ∃ x f, x.toNat = (256 - (s.reg 0).toNat) % 256 ∧
        FlagsAre f ((s.reg 0).toNat ≠ 0) ((s.reg 0).toNat = 128) (x.toNat = 0) (128 ≤ x.toNat) ∧
        exec .neg s = .next (s.afterQuiet { s.cpu with regs := s.cpu.regs.set 0 x, f := f } 1)) ∧
    (encode .swap = [0xE7] ∧
      ∃ x f, x.toNat = 16 * ((s.reg 0).toNat % 16) + (s.reg 0).toNat / 16 ∧
        FlagsAre f (s.flagC = true) False (x.toNat = 0) (128 ≤ x.toNat) ∧
        exec .swap s = .next (s.afterQuiet { s.cpu with regs := s.cpu.regs.set 0 x, f := f } 1))

/-- O14. MUL and DIV: exact product, quotient and remainder, the zero divisor, flags, cycles, frame (40_alu.md R160,
40_alu.md R161). -/
def Obligations.MulDivResults : Prop :=
  ∀ s : State,
    (encode .mul = [0xF9] ∧
      ∃ x y f, x.toNat = (s.reg 0).toNat * (s.reg 1).toNat % 256 ∧ y.toNat = (s.reg 0).toNat * (s.reg 1).toNat / 256 ∧
        FlagsAre f (y.toNat ≠ 0) False ((s.reg 0).toNat * (s.reg 1).toNat = 0)
          (32768 ≤ (s.reg 0).toNat * (s.reg 1).toNat) ∧
        exec .mul s = .next (s.afterQuiet { s.cpu with regs := (s.cpu.regs.set 0 x).set 1 y, f := f } 8)) ∧
    (encode .div = [0xFA] ∧
      ∃ x y f, (if (s.reg 1).toNat = 0 then x.toNat = 255 ∧ y = s.reg 0 ∧ FlagsAre f False True False True
        else x.toNat = (s.reg 0).toNat / (s.reg 1).toNat ∧ y.toNat = (s.reg 0).toNat % (s.reg 1).toNat ∧
          FlagsAre f False False (x.toNat = 0) (128 ≤ x.toNat)) ∧
        exec .div s = .next (s.afterQuiet { s.cpu with regs := (s.cpu.regs.set 0 x).set 1 y, f := f } 16))

/-- O15. INCW, DECW: a pair stepped modulo 65536, Z set, C, V, S kept, nothing else changed (40_alu.md R162,
40_alu.md R163). -/
def Obligations.IncwDecwResults : Prop :=
  ∀ s : State,
    (∀ p : PairIdx, encode (.incw p) = [BitVec.ofNat 8 (0x34 + p.val)] ∧
      ∃ hi lo f, hi.toNat * 256 + lo.toNat =
          ((s.reg (pairHigh p)).toNat * 256 + (s.reg (pairLow p)).toNat + 1) % 65536 ∧
        FlagsAre f (s.flagC = true) (s.flagV = true) (hi.toNat * 256 + lo.toNat = 0) (s.flagS = true) ∧
        exec (.incw p) s = .next (s.afterQuiet { s.cpu with
          regs := (s.cpu.regs.set (pairHigh p).val hi).set (pairLow p).val lo, f := f } 2)) ∧
    (∀ p : PairIdx, encode (.decw p) = [BitVec.ofNat 8 (0x38 + p.val)] ∧
      ∃ hi lo f, hi.toNat * 256 + lo.toNat =
          ((s.reg (pairHigh p)).toNat * 256 + (s.reg (pairLow p)).toNat + 65535) % 65536 ∧
        FlagsAre f (s.flagC = true) (s.flagV = true) (hi.toNat * 256 + lo.toNat = 0) (s.flagS = true) ∧
        exec (.decw p) s = .next (s.afterQuiet { s.cpu with
          regs := (s.cpu.regs.set (pairHigh p).val hi).set (pairLow p).val lo, f := f } 2))

/-- O16. CLC, SEC, CMC: C cleared, set, inverted, nothing else changed (40_alu.md R164, 40_alu.md R165, 40_alu.md
R166). -/
def Obligations.CarryFlagResults : Prop :=
  ∀ s : State,
    (encode .clc = [0x05] ∧
      ∃ f, FlagsAre f False (s.flagV = true) (s.flagZ = true) (s.flagS = true) ∧
        exec .clc s = .next (s.afterQuiet { s.cpu with f := f } 1)) ∧
    (encode .sec = [0x06] ∧
      ∃ f, FlagsAre f True (s.flagV = true) (s.flagZ = true) (s.flagS = true) ∧
        exec .sec s = .next (s.afterQuiet { s.cpu with f := f } 1)) ∧
    (encode .cmc = [0x07] ∧
      ∃ f, FlagsAre f (s.flagC = false) (s.flagV = true) (s.flagZ = true) (s.flagS = true) ∧
        exec .cmc s = .next (s.afterQuiet { s.cpu with f := f } 1))

/-- O17. MOV, LDI, LDW, LDSP, MOVSP, GETSP: the destination written, nothing else changed (41_data_movement.md R194,
41_data_movement.md R195, 41_data_movement.md R200, 41_data_movement.md R201, 41_data_movement.md R202,
41_data_movement.md R203). -/
def Obligations.RegisterMoveResults : Prop :=
  ∀ s : State,
    (∀ d r : RegIdx, encode (.mov d r) = [BitVec.ofNat 8 (0x40 + 8 * d.val + r.val)] ∧
      exec (.mov d r) s = .next (s.afterQuiet { s.cpu with regs := s.cpu.regs.set d.val (s.reg r) } 1)) ∧
    (∀ (r : RegIdx) (imm : Byte), encode (.ldi r imm) = [BitVec.ofNat 8 (0x08 + r.val), imm] ∧
      exec (.ldi r imm) s = .next (s.afterQuiet { s.cpu with regs := s.cpu.regs.set r.val imm } 2)) ∧
    (∀ (p : PairIdx) (hi lo : Byte), encode (.ldw p (word16 hi lo)) = [BitVec.ofNat 8 (0x30 + p.val), lo, hi] ∧
      exec (.ldw p (word16 hi lo)) s = .next (s.afterQuiet { s.cpu with
          regs := (s.cpu.regs.set (pairHigh p).val hi).set (pairLow p).val lo } 3)) ∧
    (∀ hi lo : Byte, encode (.ldsp (word16 hi lo)) = [0x3C, lo, hi] ∧
      exec (.ldsp (word16 hi lo)) s = .next (s.afterQuiet { s.cpu with sp := word16 hi lo } 3)) ∧
    (encode .movsp = [0x3D] ∧
      exec .movsp s = .next (s.afterQuiet { s.cpu with sp := word16 (s.reg 7) (s.reg 6) } 2)) ∧
    (encode .getsp = [0x3E] ∧
      exec .getsp s = .next (s.afterQuiet { s.cpu with
          regs := (s.cpu.regs.set 7 (highByte s.cpu.sp)).set 6 (lowByte s.cpu.sp) } 2))

/-- O18. LD, LDX: one bus read into the register, no flag, no byte of memory changed (41_data_movement.md R196,
41_data_movement.md R198). -/
def Obligations.LoadResults : Prop :=
  ∀ s : State,
    (∀ (r : RegIdx) (hi lo : Byte), encode (.ld r (word16 hi lo)) = [BitVec.ofNat 8 (0x10 + r.val), lo, hi] ∧
      ∃ t, exec (.ld r (word16 hi lo)) s = .next t ∧
        t = s.afterAccess { s.cpu with regs := s.cpu.regs.set r.val (s.bus.answer (word16 hi lo)) } 4
          (s.bus.afterRead (word16 hi lo))
          [.read (word16 hi lo) (s.bus.answer (word16 hi lo))] ∧
        (∀ x, t.memByte x = s.memByte x) ∧
        (s.bus.kindAt (word16 hi lo) = .ram ∨ s.bus.kindAt (word16 hi lo) = .rom → t.reg r = s.memByte (word16 hi lo))) ∧
    (∀ r : RegIdx, encode (.ldx r) = [BitVec.ofNat 8 (0x20 + r.val)] ∧
      ∃ t, exec (.ldx r) s = .next t ∧
        t = s.afterAccess { s.cpu with regs := s.cpu.regs.set r.val (s.bus.answer (word16 (s.reg 7) (s.reg 6))) } 2
          (s.bus.afterRead (word16 (s.reg 7) (s.reg 6)))
          [.read (word16 (s.reg 7) (s.reg 6)) (s.bus.answer (word16 (s.reg 7) (s.reg 6)))] ∧
        (∀ x, t.memByte x = s.memByte x) ∧
        (s.bus.kindAt (word16 (s.reg 7) (s.reg 6)) = .ram ∨ s.bus.kindAt (word16 (s.reg 7) (s.reg 6)) = .rom →
          t.reg r = s.memByte (word16 (s.reg 7) (s.reg 6))))

/-- O19. ST, STX: one bus write of the register, no register or flag changed, no other byte changed
(41_data_movement.md R197, 41_data_movement.md R199). -/
def Obligations.StoreResults : Prop :=
  ∀ s : State,
    (∀ (r : RegIdx) (hi lo : Byte), encode (.st r (word16 hi lo)) = [BitVec.ofNat 8 (0x18 + r.val), lo, hi] ∧
      ∃ t, exec (.st r (word16 hi lo)) s = .next t ∧
        t = s.afterAccess s.cpu 4
          (s.bus.write (word16 hi lo) (s.reg r))
          [.write (word16 hi lo) (s.reg r)] ∧
        (∀ x, x ≠ (word16 hi lo) → t.memByte x = s.memByte x) ∧
        (s.bus.mem.wf → s.bus.kindAt (word16 hi lo) = .ram → t.memByte (word16 hi lo) = s.reg r) ∧
        (s.bus.kindAt (word16 hi lo) = .rom ∨ s.bus.kindAt (word16 hi lo) = .unmapped →
          t.bus = s.bus)) ∧
    (∀ r : RegIdx, encode (.stx r) = [BitVec.ofNat 8 (0x28 + r.val)] ∧
      ∃ t, exec (.stx r) s = .next t ∧
        t = s.afterAccess s.cpu 2
          (s.bus.write (word16 (s.reg 7) (s.reg 6)) (s.reg r))
          [.write (word16 (s.reg 7) (s.reg 6)) (s.reg r)] ∧
        (∀ x, x ≠ (word16 (s.reg 7) (s.reg 6)) → t.memByte x = s.memByte x) ∧
        (s.bus.mem.wf → s.bus.kindAt (word16 (s.reg 7) (s.reg 6)) = .ram → t.memByte (word16 (s.reg 7) (s.reg 6)) = s.reg r) ∧
        (s.bus.kindAt (word16 (s.reg 7) (s.reg 6)) = .rom ∨ s.bus.kindAt (word16 (s.reg 7) (s.reg 6)) = .unmapped →
          t.bus = s.bus))

/-- O20. push8, push16, pop8, pop16: the bytes, their order, and SP modulo 65536 (41_data_movement.md R190,
41_data_movement.md R191, 41_data_movement.md R192, 41_data_movement.md R193). -/
def Obligations.StackPrimitives : Prop :=
  ∀ s : State,
    (∀ v, s.push8 v =
      { cpu := { s.cpu with sp := s.cpu.sp - 1 }, bus := s.bus.write (s.cpu.sp - 1) v,
        obs := { s.obs with trace := s.obs.trace ++ [.write (s.cpu.sp - 1) v] } }) ∧
    (∀ hi lo : Byte, s.push16 (word16 hi lo) =
      { cpu := { s.cpu with sp := s.cpu.sp - 2 },
        bus := (s.bus.write (s.cpu.sp - 1) hi).write (s.cpu.sp - 2) lo,
        obs := { s.obs with trace := s.obs.trace ++ [.write (s.cpu.sp - 1) hi, .write (s.cpu.sp - 2) lo] } }) ∧
    (s.pop8 = (s.bus.answer s.cpu.sp,
      { cpu := { s.cpu with sp := s.cpu.sp + 1 }, bus := s.bus.afterRead s.cpu.sp,
        obs := { s.obs with trace := s.obs.trace ++ [.read s.cpu.sp (s.bus.answer s.cpu.sp)] } })) ∧
    (∃ lo hi : Byte, lo = s.bus.answer s.cpu.sp ∧ hi = (s.bus.afterRead s.cpu.sp).answer (s.cpu.sp + 1) ∧
      s.pop16 = (word16 hi lo,
        { cpu := { s.cpu with sp := s.cpu.sp + 2 },
          bus := (s.bus.afterRead s.cpu.sp).afterRead (s.cpu.sp + 1),
          obs := { s.obs with trace := s.obs.trace ++ [.read s.cpu.sp lo, .read (s.cpu.sp + 1) hi] } })) ∧
    (s.bus.mem.wf → s.bus.kindAt (s.cpu.sp - 1) = .ram → s.bus.kindAt (s.cpu.sp - 2) = .ram →
      ∀ v, (s.push16 v).pop16.1 = v ∧ (s.push16 v).pop16.2.cpu = s.cpu)

/-- O21. PUSH, PUSHF: the bytes written below SP, no register or flag changed, no other byte changed
(41_data_movement.md R204, 41_data_movement.md R206). -/
def Obligations.PushResults : Prop :=
  ∀ s : State,
    (∀ p : PairIdx, encode (.push p) = [BitVec.ofNat 8 (0xE8 + p.val)] ∧
      ∃ t, exec (.push p) s = .next t ∧
        t = s.afterAccess { s.cpu with sp := s.cpu.sp - 2 } 3
          ((s.bus.write (s.cpu.sp - 1) (s.reg (pairHigh p))).write (s.cpu.sp - 2) (s.reg (pairLow p)))
          [.write (s.cpu.sp - 1) (s.reg (pairHigh p)), .write (s.cpu.sp - 2) (s.reg (pairLow p))] ∧
        (∀ x, x ≠ s.cpu.sp - 1 → x ≠ s.cpu.sp - 2 → t.memByte x = s.memByte x)) ∧
    (encode .pushf = [0xF7] ∧
      ∃ t, exec .pushf s = .next t ∧
        t = s.afterAccess { s.cpu with sp := s.cpu.sp - 1 } 2
          (s.bus.write (s.cpu.sp - 1) (s.cpu.f &&& 0x0F))
          [.write (s.cpu.sp - 1) (s.cpu.f &&& 0x0F)] ∧
        (∀ x, x ≠ s.cpu.sp - 1 → t.memByte x = s.memByte x))

/-- O22. POP, POPF: the bytes read at SP, SP moved up, no byte of memory changed (41_data_movement.md R205,
41_data_movement.md R207). -/
def Obligations.PopResults : Prop :=
  ∀ s : State,
    (∀ p : PairIdx, encode (.pop p) = [BitVec.ofNat 8 (0xEC + p.val)] ∧
      ∃ lo hi t, lo = s.bus.answer s.cpu.sp ∧ hi = (s.bus.afterRead s.cpu.sp).answer (s.cpu.sp + 1) ∧
        exec (.pop p) s = .next t ∧
        t = s.afterAccess
          { s.cpu with regs := (s.cpu.regs.set (pairHigh p).val hi).set (pairLow p).val lo, sp := s.cpu.sp + 2 } 3
          ((s.bus.afterRead s.cpu.sp).afterRead (s.cpu.sp + 1))
          [.read s.cpu.sp lo, .read (s.cpu.sp + 1) hi] ∧
        (∀ x, t.memByte x = s.memByte x)) ∧
    (encode .popf = [0xF8] ∧
      ∃ t, exec .popf s = .next t ∧
        t = s.afterAccess { s.cpu with f := s.bus.answer s.cpu.sp &&& 0x0F, sp := s.cpu.sp + 1 } 2
          (s.bus.afterRead s.cpu.sp)
          [.read s.cpu.sp (s.bus.answer s.cpu.sp)] ∧
        (∀ x, t.memByte x = s.memByte x))

/-- O23. The eight conditional branches: condition, target, cycles, nothing else changed (42_control_transfer.md
R233, 42_control_transfer.md R234, 42_control_transfer.md R235, 42_control_transfer.md R236, 42_control_transfer.md
R237, 42_control_transfer.md R238, 42_control_transfer.md R239, 42_control_transfer.md R240). -/
def Obligations.ConditionalBranchResults : Prop :=
  ∀ (s : State) (rel : Byte),
    (encode (.beq rel) = [0xC8, rel] ∧ exec (.beq rel) s = .next (s.afterBranch s.flagZ rel)) ∧
    (encode (.bne rel) = [0xC9, rel] ∧ exec (.bne rel) s = .next (s.afterBranch (!s.flagZ) rel)) ∧
    (encode (.bcs rel) = [0xCA, rel] ∧ exec (.bcs rel) s = .next (s.afterBranch s.flagC rel)) ∧
    (encode (.bcc rel) = [0xCB, rel] ∧ exec (.bcc rel) s = .next (s.afterBranch (!s.flagC) rel)) ∧
    (encode (.bmi rel) = [0xCC, rel] ∧ exec (.bmi rel) s = .next (s.afterBranch s.flagS rel)) ∧
    (encode (.bpl rel) = [0xCD, rel] ∧ exec (.bpl rel) s = .next (s.afterBranch (!s.flagS) rel)) ∧
    (encode (.bvs rel) = [0xCE, rel] ∧ exec (.bvs rel) s = .next (s.afterBranch s.flagV rel)) ∧
    (encode (.bvc rel) = [0xCF, rel] ∧ exec (.bvc rel) s = .next (s.afterBranch (!s.flagV) rel))

/-- O24. BRA, JMP, JMPI: the target in PC, nothing else changed (42_control_transfer.md R232, 42_control_transfer.md
R241, 42_control_transfer.md R242). -/
def Obligations.JumpResults : Prop :=
  ∀ s : State,
    (∀ rel : Byte, encode (.bra rel) = [0xF4, rel] ∧ exec (.bra rel) s = .next (s.afterBranch true rel)) ∧
    (∀ hi lo : Byte, encode (.jmp (word16 hi lo)) = [0xF0, lo, hi] ∧
      exec (.jmp (word16 hi lo)) s = .next (s.afterQuiet { s.cpu with pc := word16 hi lo } 4)) ∧
    (encode .jmpi = [0xF5] ∧
      exec .jmpi s = .next (s.afterQuiet { s.cpu with pc := word16 (s.reg 7) (s.reg 6) } 2))

/-- O25. CALL, CALLI: the return address pushed, PC at the target, nothing else changed (42_control_transfer.md
R243, 42_control_transfer.md R244). -/
def Obligations.CallResults : Prop :=
  ∀ s : State,
    (∀ hi lo : Byte, encode (.call (word16 hi lo)) = [0xF1, lo, hi] ∧
      ∃ t, exec (.call (word16 hi lo)) s = .next t ∧
        t = s.afterAccess { s.cpu with sp := s.cpu.sp - 2, pc := word16 hi lo } 6
          ((s.bus.write (s.cpu.sp - 1) (highByte s.cpu.pc)).write (s.cpu.sp - 2) (lowByte s.cpu.pc))
          [.write (s.cpu.sp - 1) (highByte s.cpu.pc), .write (s.cpu.sp - 2) (lowByte s.cpu.pc)] ∧
        (∀ x, x ≠ s.cpu.sp - 1 → x ≠ s.cpu.sp - 2 → t.memByte x = s.memByte x)) ∧
    (encode .calli = [0xF6] ∧
      ∃ t, exec .calli s = .next t ∧
        t = s.afterAccess { s.cpu with sp := s.cpu.sp - 2, pc := word16 (s.reg 7) (s.reg 6) } 4
          ((s.bus.write (s.cpu.sp - 1) (highByte s.cpu.pc)).write (s.cpu.sp - 2) (lowByte s.cpu.pc))
          [.write (s.cpu.sp - 1) (highByte s.cpu.pc), .write (s.cpu.sp - 2) (lowByte s.cpu.pc)] ∧
        (∀ x, x ≠ s.cpu.sp - 1 → x ≠ s.cpu.sp - 2 → t.memByte x = s.memByte x))

/-- O26. RET: PC from the two bytes at SP, no byte of memory changed; RET undoes CALL and CALLI
(42_control_transfer.md R245, 41_data_movement.md R193, 42_control_transfer.md R243, 42_control_transfer.md R244).
-/
def Obligations.RetResult : Prop :=
  ∀ s : State,
    (encode .ret = [0xF2] ∧
      ∃ lo hi t, lo = s.bus.answer s.cpu.sp ∧ hi = (s.bus.afterRead s.cpu.sp).answer (s.cpu.sp + 1) ∧
        exec .ret s = .next t ∧
        t = s.afterAccess { s.cpu with pc := word16 hi lo, sp := s.cpu.sp + 2 } 4
          ((s.bus.afterRead s.cpu.sp).afterRead (s.cpu.sp + 1))
          [.read s.cpu.sp lo, .read (s.cpu.sp + 1) hi] ∧
        (∀ x, t.memByte x = s.memByte x)) ∧
    (s.bus.mem.wf → s.bus.kindAt (s.cpu.sp - 1) = .ram → s.bus.kindAt (s.cpu.sp - 2) = .ram →
      ∀ abs t u, (exec (.call abs) s = .next t ∨ exec .calli s = .next t) → exec .ret t = .next u →
        u.cpu.pc = s.cpu.pc ∧ u.cpu.sp = s.cpu.sp ∧ u.cpu.regs = s.cpu.regs ∧ u.cpu.f = s.cpu.f)

/-- O27. NOP and the reserved opcodes: no effect but PC, IES and CYC; 1 cycle and 2 cycles (43_system.md R260,
43_system.md R266). -/
def Obligations.NopIllegalResults : Prop :=
  ∀ s : State,
    (encode .nop = [0x00] ∧ exec .nop s = .next (s.afterQuiet s.cpu 1)) ∧
    (encode .illegal3F = [0x3F] ∧ exec .illegal3F s = .next (s.afterQuiet s.cpu 2)) ∧
    (encode .illegalFB = [0xFB] ∧ exec .illegalFB s = .next (s.afterQuiet s.cpu 2)) ∧
    (∀ op : Byte, 0xFC ≤ op.toNat → encode (.illegalFC op) = [op] ∧
      exec (.illegalFC op) s = .next (s.afterQuiet s.cpu 2)) ∧
    (s.cpu.variant = ref8Tag → s.cpu.halted = false → s.cpu.accepts = false →
      ∀ op : Byte, s.bus.answer s.cpu.pc = op → op = 0x00 ∨ op = 0x3F ∨ 0xFB ≤ op.toNat →
      ∃ n : Nat, n = (if op = 0x00 then 1 else 2) ∧ step s = .next
        { cpu := { s.cpu with pc := s.cpu.pc + 1, ies := false, cyc := s.cpu.cyc + BitVec.ofNat 64 n },
          bus := s.bus.afterRead s.cpu.pc,
          obs := { kind := some (.exec op), cycles := n, trace := [.read s.cpu.pc op] } })

/-- O28. HALT, DI, EI: the control bits written, nothing else changed (43_system.md R261, 43_system.md R262,
43_system.md R263). -/
def Obligations.HaltDiEiResults : Prop :=
  ∀ s : State,
    (encode .halt = [0x01] ∧
      exec .halt s = .next (s.afterQuiet { s.cpu with halted := true } 1)) ∧
    (encode .di = [0x02] ∧
      exec .di s = .next (s.afterQuiet { s.cpu with ie := false, ies := false } 1)) ∧
    (encode .ei = [0x03] ∧
      exec .ei s = .next (s.afterQuiet { s.cpu with ie := true, ies := true } 1))

/-- O29. enter_trap: the three bytes written, SP, PC and the control bits, and the frame it leaves in RAM
(60_exceptions.md R292). -/
def Obligations.TrapEntry : Prop :=
  ∀ (s : State) (vector : Addr) (hi lo : Byte),
    s.enterTrap vector (word16 hi lo) =
      { cpu := { s.cpu with sp := s.cpu.sp - 3, pc := vector, ie := false, ies := false, halted := false },
        bus := ((s.bus.write (s.cpu.sp - 1) hi).write (s.cpu.sp - 2) lo).write (s.cpu.sp - 3) (s.cpu.f &&& 0x0F),
        obs := { s.obs with trace := s.obs.trace ++
          [.write (s.cpu.sp - 1) hi, .write (s.cpu.sp - 2) lo, .write (s.cpu.sp - 3) (s.cpu.f &&& 0x0F)] } } ∧
    (s.bus.mem.wf → (∀ k : Addr, k = 1 ∨ k = 2 ∨ k = 3 → s.bus.kindAt (s.cpu.sp - k) = .ram) →
      ∀ t, t = s.enterTrap vector (word16 hi lo) →
        t.memByte t.cpu.sp = s.cpu.f &&& 0x0F ∧ t.memByte (t.cpu.sp + 1) = lo ∧ t.memByte (t.cpu.sp + 2) = hi ∧
        ∀ x, x ≠ s.cpu.sp - 1 → x ≠ s.cpu.sp - 2 → x ≠ s.cpu.sp - 3 → t.memByte x = s.memByte x)

/-- O30. SWI: trap entry at 0x0010 with the address after it, whatever IE is, in 5 cycles (43_system.md R264). -/
def Obligations.SwiResult : Prop :=
  ∀ s : State,
    (encode .swi = [0x04] ∧
      ∃ t, exec .swi s = .next t ∧
        t = s.afterAccess { s.cpu with sp := s.cpu.sp - 3, pc := 0x0010, ie := false, ies := false, halted := false } 5
          (((s.bus.write (s.cpu.sp - 1) (highByte s.cpu.pc)).write (s.cpu.sp - 2) (lowByte s.cpu.pc)).write
            (s.cpu.sp - 3) (s.cpu.f &&& 0x0F))
          [.write (s.cpu.sp - 1) (highByte s.cpu.pc), .write (s.cpu.sp - 2) (lowByte s.cpu.pc),
            .write (s.cpu.sp - 3) (s.cpu.f &&& 0x0F)] ∧
        (∀ x, x ≠ s.cpu.sp - 1 → x ≠ s.cpu.sp - 2 → x ≠ s.cpu.sp - 3 → t.memByte x = s.memByte x))

/-- O31. RETI: F and PC from the frame at SP, IE set with no shadow, in 5 cycles (43_system.md R265). -/
def Obligations.RetiResult : Prop :=
  ∀ s : State, encode .reti = [0xF3] ∧
    ∃ fl lo hi t, fl = s.bus.answer s.cpu.sp ∧ lo = (s.bus.afterRead s.cpu.sp).answer (s.cpu.sp + 1) ∧
      hi = ((s.bus.afterRead s.cpu.sp).afterRead (s.cpu.sp + 1)).answer (s.cpu.sp + 2) ∧
      exec .reti s = .next t ∧
      t = s.afterAccess { s.cpu with f := fl &&& 0x0F, pc := word16 hi lo, sp := s.cpu.sp + 3, ie := true } 5
        (((s.bus.afterRead s.cpu.sp).afterRead (s.cpu.sp + 1)).afterRead (s.cpu.sp + 2))
        [.read s.cpu.sp fl, .read (s.cpu.sp + 1) lo, .read (s.cpu.sp + 2) hi] ∧
      (∀ x, t.memByte x = s.memByte x) ∧
      (s.cpu.irq = true → s.cpu.ies = false → t.cpu.accepts = true)

/-- O32. RETI after SWI gives back PC, SP, F and the registers, and sets IE (43_system.md R264, 43_system.md R265,
60_exceptions.md R292, 60_exceptions.md R295). -/
def Obligations.RetiUndoesSwi : Prop :=
  ∀ s : State, s.bus.mem.wf → (∀ k : Addr, k = 1 ∨ k = 2 ∨ k = 3 → s.bus.kindAt (s.cpu.sp - k) = .ram) →
    ∃ t u, exec .swi s = .next t ∧ exec .reti t = .next u ∧
      u.cpu.pc = s.cpu.pc ∧ u.cpu.sp = s.cpu.sp ∧ u.cpu.f = s.cpu.f &&& 0x0F ∧ u.cpu.regs = s.cpu.regs ∧ u.cpu.ie = true

/-- O33. A step runs the instruction that the fetched bytes decode to (30_encoding.md R114, 60_exceptions.md R290).
-/
def Obligations.StepRunsDecodedInstruction : Prop :=
  ∀ (s : State) (i : Instr), s.cpu.variant = ref8Tag → s.cpu.halted = false → s.cpu.accepts = false →
    ∀ (op b1 b2 : Byte) (bus : Bus) (reads : List BusEvent),
    op = s.bus.answer s.cpu.pc →
    (match instrLen op with
      | 1 => bus = s.bus.afterRead s.cpu.pc ∧ reads = [.read s.cpu.pc op]
      | 2 => b1 = (s.bus.afterRead s.cpu.pc).answer (s.cpu.pc + 1) ∧
          bus = (s.bus.afterRead s.cpu.pc).afterRead (s.cpu.pc + 1) ∧
          reads = [.read s.cpu.pc op, .read (s.cpu.pc + 1) b1]
      | _ => b1 = (s.bus.afterRead s.cpu.pc).answer (s.cpu.pc + 1) ∧
          b2 = ((s.bus.afterRead s.cpu.pc).afterRead (s.cpu.pc + 1)).answer (s.cpu.pc + 2) ∧
          bus = ((s.bus.afterRead s.cpu.pc).afterRead (s.cpu.pc + 1)).afterRead (s.cpu.pc + 2) ∧
          reads = [.read s.cpu.pc op, .read (s.cpu.pc + 1) b1, .read (s.cpu.pc + 2) b2]) →
    decode ([op, b1, b2].take (instrLen op)) = .ok (i, []) →
    i.wellFormed = true ∧
    step s = exec i
      { cpu := { s.cpu with pc := s.cpu.pc + BitVec.ofNat 16 (instrLen op), ies := false }, bus := bus,
        obs := { kind := some (.exec op), cycles := 0, trace := reads } }

/-- O34. With an instruction's encoding in memory at PC, the step executes that instruction (30_encoding.md R114,
60_exceptions.md R290, 20_memory.md R79). -/
def Obligations.StepRunsEncodedInstruction : Prop :=
  ∀ (s : State) (i : Instr), s.cpu.variant = ref8Tag → s.cpu.halted = false → s.cpu.accepts = false → i.wellFormed = true →
    (∀ (k : Nat) (b : Byte), (encode i)[k]? = some b →
      (s.bus.kindAt (s.cpu.pc + BitVec.ofNat 16 k) = .ram ∨ s.bus.kindAt (s.cpu.pc + BitVec.ofNat 16 k) = .rom) ∧
      s.memByte (s.cpu.pc + BitVec.ofNat 16 k) = b) →
    step s = exec i
      { cpu := { s.cpu with pc := s.cpu.pc + BitVec.ofNat 16 (encode i).length, ies := false },
        bus := { s.bus with last := (encode i).getLastD 0x00 },
        obs :=
          { kind := some (.exec (opcodeOf i)), cycles := 0,
            trace := (encode i).mapIdx (fun k b => .read (s.cpu.pc + BitVec.ofNat 16 k) b) } }

/-- O35. The instruction that withFetchWord places (the model's choice, log 9) is what the next step executes, at
the state after its fetch (30_encoding.md R114, 70_reset_and_hazards.md R325). -/
def Obligations.PlacedWordRuns : Prop :=
  ∀ (s : State) (nbits w : Nat) (i : Instr), s.bus.mem.wf → decodeTableWord nbits w = some i →
    step (s.withFetchWord nbits w) = exec i
      { cpu :=
          { s.cpu with
            variant := ref8Tag, halted := false, irq := s.cpu.irq && !s.cpu.accepts, ies := false,
            pc := s.cpu.pc + BitVec.ofNat 16 (encode i).length },
        bus := { (s.withFetchWord nbits w).bus with last := (encode i).getLastD 0x00 },
        obs :=
          { kind := some (.exec (opcodeOf i)), cycles := 0,
            trace := (encode i).mapIdx (fun k b => .read (s.cpu.pc + BitVec.ofNat 16 k) b) } } ∧
    ∀ x, x ≠ s.cpu.pc → x ≠ s.cpu.pc + 1 → x ≠ s.cpu.pc + 2 →
      (s.withFetchWord nbits w).memByte x = s.memByte x ∧
      (s.withFetchWord nbits w).bus.kindAt x = s.bus.kindAt x

/-- O36. An accepted interrupt: trap entry at 0x0008 with PC as return address, 6 cycles, nothing fetched
(60_exceptions.md R291). -/
def Obligations.AcknowledgeStep : Prop :=
  ∀ s : State, s.cpu.variant = ref8Tag → s.cpu.accepts = true →
    step s = .next
      { cpu :=
          { s.cpu with
            sp := s.cpu.sp - 3, pc := 0x0008, ie := false, ies := false, halted := false, cyc := s.cpu.cyc + 6 },
        bus := ((s.bus.write (s.cpu.sp - 1) (highByte s.cpu.pc)).write (s.cpu.sp - 2) (lowByte s.cpu.pc)).write
            (s.cpu.sp - 3) (s.cpu.f &&& 0x0F),
        obs :=
          { kind := some .irqAck, cycles := 6,
            trace := [.write (s.cpu.sp - 1) (highByte s.cpu.pc), .write (s.cpu.sp - 2) (lowByte s.cpu.pc),
            .write (s.cpu.sp - 3) (s.cpu.f &&& 0x0F)] } }

/-- O37. A halted step: acknowledge if accepted, wake if IRQ is 1, else one idle cycle (60_exceptions.md R293). -/
def Obligations.HaltedSteps : Prop :=
  ∀ s : State, s.cpu.variant = ref8Tag → s.cpu.halted = true →
    (s.cpu.irq = true → s.cpu.ie = true → s.cpu.ies = false →
      ∃ t, step s = .next t ∧ t.obs.kind = some .irqAck ∧ t.obs.cycles = 6 ∧ t.cpu.halted = false ∧ t.cpu.pc = 0x0008 ∧
        t.cpu.cyc = s.cpu.cyc + 6 ∧ t.obs.trace.map BusEvent.access = acknowledgeAccesses s) ∧
    (s.cpu.irq = true → s.cpu.ie = false ∨ s.cpu.ies = true →
      step s = .next
        { cpu := { s.cpu with halted := false, cyc := s.cpu.cyc + 1 }, bus := s.bus,
          obs := { kind := some .wake, cycles := 1, trace := [] } }) ∧
    (s.cpu.irq = false →
      step s = .next
        { cpu := { s.cpu with cyc := s.cpu.cyc + 1 }, bus := s.bus,
          obs := { kind := some .idle, cycles := 1, trace := [] } })

/-- O38. A step acknowledges exactly when IRQ is 1, IE is 1 and IES is 0 (60_exceptions.md R289). -/
def Obligations.InterruptAcceptedIff : Prop :=
  ∀ s : State, s.cpu.variant = ref8Tag →
    ∃ t, step s = .next t ∧
      (t.obs.kind = some .irqAck ↔ s.cpu.irq = true ∧ s.cpu.ie = true ∧ s.cpu.ies = false)

/-- O39. With tag 0x00 step, interrupt, serialize and deserialize are refused (60_exceptions.md R308). -/
def Obligations.StepNeedsVariant : Prop :=
  (∀ (s : State) (level : Bool) (image : List Byte), s.cpu.variant = 0x00 →
    step s = .refused .preLoadIdle ∧ s.interrupt level = .refused .preLoadIdle ∧
    s.serialize = .error .preLoadIdle ∧ s.deserialize image = .error .preLoadIdle) ∧
  ∀ (σ : Type) (V : Variant σ) (b : Bus) (level : Bool) (image : List Byte),
    (AnyCpu.preLoad : AnyCpu σ).tag V = 0x00 ∧
    (AnyCpu.preLoad : AnyCpu σ).step V b = none ∧ (AnyCpu.preLoad : AnyCpu σ).interrupt V level = none ∧
    (AnyCpu.preLoad : AnyCpu σ).serialize V = none ∧ (AnyCpu.preLoad : AnyCpu σ).deserialize V image = none

/-- O40. A REF8 step never fails; tag 0x00 has no step (R308), nor, by the model's choice, has a console variant's
tag here (log 7) (60_exceptions.md R287, 60_exceptions.md R283, 60_exceptions.md R308). -/
def Obligations.StepAlwaysAnswers : Prop :=
  (∀ (i : Instr) (s : State), ∃ t, exec i s = .next t) ∧
  ∀ s : State, (s.cpu.variant = ref8Tag → s.safe) ∧ (s.cpu.variant ≠ ref8Tag → ¬ s.safe)

/-- O41. Every step keeps the invariant: REF8 selected, F high bits 0, never HALTED with IES, memory canonical
(10_state.md R37, 10_state.md R47, 60_exceptions.md R290). -/
def Obligations.StepKeepsInvariant : Prop :=
  ∀ s t : State, s.inv → step s = .next t → t.inv

/-- O42. The state after reset (REF8 selected, memory empty: the model's, logs 6 and 2) meets the invariant that
every step keeps (10_state.md R50, 70_reset_and_hazards.md R321). -/
def Obligations.ResetMeetsInvariant : Prop :=
  State.reset.inv

/-- O43. A step returns 1 to 16 cycles, adds exactly them to CYC, and says what it did (60_exceptions.md R280,
60_exceptions.md R302, 60_exceptions.md R307). -/
def Obligations.StepCycleCount : Prop :=
  ∀ s t : State, step s = .next t →
    1 ≤ t.obs.cycles ∧ t.obs.cycles ≤ 16 ∧ t.cpu.cyc = s.cpu.cyc + BitVec.ofNat 64 t.obs.cycles ∧
    (t.obs.kind = some .irqAck ∨ t.obs.kind = some .wake ∨ t.obs.kind = some .idle ∨
      ∃ op, t.obs.kind = some (.exec op) ∧ t.obs.trace.head? = some (.read s.cpu.pc op))

/-- O44. Every cycle count is bus accesses, plus one for a control transfer, plus the internal cycles
(70_reset_and_hazards.md R335, 70_reset_and_hazards.md R336). -/
def Obligations.CostModelHolds : Prop :=
  (∀ (i : Instr) (s t : State), exec i s = .next t → t.obs.cycles = modelCycles s i) ∧
  ∀ s t : State, step s = .next t →
    match t.obs.kind with
    | some .irqAck => t.obs.cycles = t.obs.trace.length + 1 + 2
    | some (.exec op) => ∀ b1 b2, t.obs.cycles =
        t.obs.trace.length + (transfers s (decodeOp op b1 b2)).toNat + internalCycles (decodeOp op b1 b2)
    | _ => t.obs.trace = [] ∧ t.obs.cycles = 1

/-- O45. The bus accesses of every instruction are its fetch reads and those of the access table, in order
(20_memory.md R80, 20_memory.md R81, 30_encoding.md R114). -/
def Obligations.AccessTableHolds : Prop :=
  (∀ (i : Instr) (s t : State), exec i s = .next t →
    ∃ events, t.obs.trace = s.obs.trace ++ events ∧ events.map BusEvent.access = dataAccesses s i) ∧
  ∀ (s t : State) (op : Byte), step s = .next t → t.obs.kind = some (.exec op) →
    ∃ (b1 b2 : Byte) (events : List BusEvent),
      t.obs.trace = ([op, b1, b2].take (instrLen op)).mapIdx (fun k b => .read (s.cpu.pc + BitVec.ofNat 16 k) b) ++ events ∧
      events.map BusEvent.access = dataAccesses s (decodeOp op b1 b2)

/-- O46. No instruction changes a register, flag, control bit or memory byte that the writer tables do not give it
(10_state.md R33, 10_state.md R38, 10_state.md R39, 10_state.md R40, 10_state.md R41, 10_state.md R42, 10_state.md
R43, 10_state.md R44, 10_state.md R45, 10_state.md R47, 20_memory.md R80, 60_exceptions.md R292). -/
def Obligations.WriterTableHolds : Prop :=
  ∀ (i : Instr) (s t : State), exec i s = .next t →
    (∀ r, writesReg r i = false → t.reg r = s.reg r) ∧
    (writesSP i = false → t.cpu.sp = s.cpu.sp) ∧
    (writesPC i = false → t.cpu.pc = s.cpu.pc) ∧
    (writesC i = false → t.flagC = s.flagC) ∧
    (writesV i = false → t.flagV = s.flagV) ∧
    (writesZ i = false → t.flagZ = s.flagZ) ∧
    (writesS i = false → t.flagS = s.flagS) ∧
    (writesIE i = false → t.cpu.ie = s.cpu.ie) ∧
    (writesIES i = false → t.cpu.ies = s.cpu.ies) ∧
    (writesHalted i = false → t.cpu.halted = s.cpu.halted) ∧
    t.cpu.irq = s.cpu.irq ∧ t.cpu.variant = s.cpu.variant ∧
    (∀ x, Access.write x ∉ dataAccesses s i → t.memByte x = s.memByte x)

/-- O47. A step uses the bus by the accesses of its trace and in no other way (20_memory.md R70, 20_memory.md R71,
20_memory.md R72, 20_memory.md R91). -/
def Obligations.TraceAccountsForBus : Prop :=
  ∀ s t : State, step s = .next t → s.bus.replay t.obs.trace = some t.bus

/-- O48. A step is a function of the CPU state and of the bytes the bus answers (60_exceptions.md R286, 20_memory.md
R91). -/
def Obligations.StepDeterminedByAnswers : Prop :=
  ∀ s₁ s₂ t u : State, s₁.cpu = s₂.cpu → step s₁ = .next t → step s₂ = .next u →
    (t.cpu = u.cpu ∧ t.obs = u.obs) ∨ PartAtAnswer t.obs.trace u.obs.trace

/-- O49. The one instruction after EI executes before any interrupt is taken (10_state.md R43, 43_system.md R263,
70_reset_and_hazards.md R328). -/
def Obligations.EiShadowHolds : Prop :=
  ∀ s t : State, step s = .next t → t.obs.kind = some (.exec 0x03) →
    t.cpu.ie = true ∧ t.cpu.ies = true ∧
    ∀ level, ∃ t' u op, t.interrupt level = .next t' ∧ step t' = .next u ∧ u.obs.kind = some (.exec op) ∧
      (u.cpu.ies = true ↔ op = 0x03)

/-- O50. interrupt(level) sets IRQ and nothing else; no step changes IRQ, the variant or, by the model's choice (log
1), the region map (60_exceptions.md R284, 10_state.md R45, 10_state.md R47). -/
def Obligations.InterruptInputLatch : Prop :=
  (∀ (s : State) (a b : Bool), s.cpu.variant = ref8Tag →
    s.interrupt a = .next { s with cpu := { s.cpu with irq := a } } ∧
    ∃ t, s.interrupt a = .next t ∧ t.interrupt b = s.interrupt b) ∧
  ∀ s t : State, step s = .next t →
    t.cpu.irq = s.cpu.irq ∧ t.cpu.variant = s.cpu.variant ∧ t.bus.regions = s.bus.regions

/-- O51. With HALTED = 1, IE = 0 and IRQ = 0, every step is idle while nothing but the core acts on IRQ (a run of
the core alone, log 8) (70_reset_and_hazards.md R324, 60_exceptions.md R293). -/
def Obligations.RunOverStaysIdle : Prop :=
  ∀ (n : Nat) (s : State), s.cpu.variant = ref8Tag → s.cpu.runOver = true →
    ∃ t : State, Sys2Proof.core.run n s = .next t ∧ t.bus = s.bus ∧
      t.cpu = { s.cpu with cyc := s.cpu.cyc + BitVec.ofNat 64 n } ∧ t.cpu.runOver = true ∧
      (0 < n → t.obs = { kind := some .idle, cycles := 1, trace := [] })

/-- O52. Read after write in RAM gives the written byte; ROM and unmapped writes have no effect (20_memory.md R74,
20_memory.md R75). -/
def Obligations.BusLaws : Prop :=
  ∀ (b : Bus) (a : Addr) (v : Byte), b.mem.wf →
    (b.kindAt a = .ram → ∀ (events : List BusEvent) (b' : Bus),
      (∀ e ∈ events, e.access ≠ .read a ∧ e.access ≠ .write a) →
      (b.write a v).replay events = some b' → b'.answer a = v) ∧
    (b.kindAt a = .rom → b.write a v = b ∧ b.answer a = b.mem.byteAt a.toNat) ∧
    (b.kindAt a = .unmapped → b.write a v = b)

/-- O53. Two memories of canonical form (the model's choice, log 1) with the same byte at every address are the same
data (20_memory.md R77, 20_memory.md R92). -/
def Obligations.CanonicalMemoriesEqual : Prop :=
  ∀ m n : Memory, m.wf → n.wf → (∀ a, m.byteAt a = n.byteAt a) → m = n

/-- O54. The image is the 24 bytes of the layout, and deserialize of it gives the state back (10_state.md R63,
10_state.md R65). -/
def Obligations.ImageLayoutAndRoundTrip : Prop :=
  ∀ c : Cpu, c.variant = ref8Tag → c.f &&& 0xF0 = 0x00 →
    (∃ b : Fin 24 → Byte, c.serialize = List.ofFn b ∧ b 0 = 0x01 ∧ b 1 = 0x01 ∧
      (∀ r : RegIdx, b ⟨2 + r.val, by omega⟩ = c.regs[r.val]) ∧ b 10 = c.f ∧
      (b 11).toNat + 256 * (b 12).toNat = c.sp.toNat ∧ (b 13).toNat + 256 * (b 14).toNat = c.pc.toNat ∧
      (b 15).toNat = c.ie.toNat + 2 * c.ies.toNat + 4 * c.halted.toNat + 8 * c.irq.toNat ∧
      (∀ k : Fin 8, (b ⟨16 + k.val, by omega⟩).toNat = c.cyc.toNat / 256 ^ k.val % 256)) ∧
    Cpu.deserialize c.serialize = .ok c

/-- O55. deserialize applies its checks in order and accepts every other image, as the state it is the image of
(10_state.md R64). -/
def Obligations.ImageChecks : Prop :=
  ∀ b : List Byte,
    if b.length ≠ 24 then Cpu.deserialize b = .error .corruptData
    else if b[0]? ≠ some 0x01 then Cpu.deserialize b = .error .corruptData
    else if 0x01 < (b.getD 1 0x00).toNat then Cpu.deserialize b = .error .versionMismatch
    else if b[1]? = some 0x00 then Cpu.deserialize b = .error .corruptData
    else if b.getD 10 0x00 &&& 0xF0 ≠ 0x00 then Cpu.deserialize b = .error .corruptData
    else if b.getD 15 0x00 &&& 0xF0 ≠ 0x00 then Cpu.deserialize b = .error .corruptData
    else ∃ c, Cpu.deserialize b = .ok c ∧ c.variant = 0x01 ∧ c.f &&& 0xF0 = 0x00 ∧ c.serialize = b

/-- O56. reset() of REF8 sets every CPU field but the tag to its reset value; the whole bus as it was: the model's
choice (log 16); before a load no effect (10_state.md R50, 70_reset_and_hazards.md R320, 70_reset_and_hazards.md
R322). -/
def Obligations.ResetEffect : Prop :=
  (∀ s : State, s.cpu.variant = ref8Tag →
    s.hostReset = .next
      { s with cpu :=
        { regs := Vector.replicate 8 0x00, sp := 0x0000, pc := 0x0000, f := 0x00, ie := false, ies := false,
          halted := false, irq := false, cyc := 0, variant := ref8Tag } }) ∧
  (∀ s : State, s.cpu.variant = 0x00 → s.hostReset = .next s) ∧
  ∀ (s : State) (level : Bool), s.cpu.variant = ref8Tag →
    ∃ r r' t op, s.hostReset = .next r ∧ r.interrupt level = .next r' ∧ step r' = .next t ∧
      t.obs.kind = some (.exec op) ∧ t.obs.trace.head? = some (.read 0x0000 op)

/-- O57. loadRom selects a variant in its reset state or fails (a tag of no variant: the model's choice, log 13);
load is whole or changes nothing (log 17) (70_reset_and_hazards.md R321, 70_reset_and_hazards.md R323, 10_state.md
R47, 10_state.md R59, 60_exceptions.md R308). -/
def Obligations.LoadRomEffect : Prop :=
  ∀ (σ : Type) (V : Variant σ) (m : Platform σ), 0x02 ≤ V.tag.toNat →
    (∀ (select : List Byte → Option Byte) (rom : List Byte) (romBus : Bus),
      (select rom = none → m.loadRom V select rom romBus = (some .invalidRom, m)) ∧
      (select rom = some 0x01 → m.loadRom V select rom romBus =
        (none, { cpu := .ref8 (Cpu.resetTo 0x01), bus := romBus })) ∧
      (select rom = some V.tag → m.loadRom V select rom romBus = (none, { cpu := .console V.reset, bus := romBus })) ∧
      (∀ t, select rom = some t → t ≠ 0x01 → t ≠ V.tag → m.loadRom V select rom romBus = (some .invalidRom, m))) ∧
    ∀ (image : List Byte) (others : Except LoadError Bus),
      (∀ c : Cpu, m.cpu = .ref8 c →
        (∀ e, Cpu.deserialize image = .error e → m.load V image others = (some (.load e), m)) ∧
        (∀ c' e, Cpu.deserialize image = .ok c' → others = .error e → m.load V image others = (some (.load e), m)) ∧
        (∀ c' b, Cpu.deserialize image = .ok c' → others = .ok b →
          m.load V image others = (none, { cpu := .ref8 c', bus := b }))) ∧
      (∀ c : σ, m.cpu = .console c →
        (∀ e, V.deserialize image = .error e → m.load V image others = (some (.load e), m)) ∧
        (∀ c' e, V.deserialize image = .ok c' → others = .error e → m.load V image others = (some (.load e), m)) ∧
        (∀ c' b, V.deserialize image = .ok c' → others = .ok b →
          m.load V image others = (none, { cpu := .console c', bus := b }))) ∧
      (m.cpu = .preLoad → m.load V image others = (some .refused, m))

/-- O58. REF8 meets the generic contract of a variant, as the model reads the generic rules (log 7) (10_state.md
R30, 10_state.md R47, 10_state.md R60, 10_state.md R61, 10_state.md R62, 60_exceptions.md R280, 60_exceptions.md
R281, 60_exceptions.md R283, 60_exceptions.md R284, 60_exceptions.md R286, 60_exceptions.md R287, 20_memory.md R72).
-/
def Obligations.Ref8MeetsContract : Prop :=
  ref8Variant.Contract

/-- O59. For every console variant meeting the contract, a frame of any selected CPU completes, whatever the other
components do (log 8) (60_exceptions.md R280, 60_exceptions.md R285, 60_exceptions.md R288, 70_reset_and_hazards.md
R323). -/
def Obligations.AnyVariantFrame : Prop :=
  ∀ (σ : Type) (V : Variant σ), V.ConsoleContract → ∀ (m : Platform σ) (frame : List Turn), m.cpu.valid V →
    (m.cpu.tag V ≠ 0x00 → ∃ n m', m.runFrame V frame = .ok (n, m') ∧ frame.length ≤ n ∧ m'.cpu.valid V ∧
      m'.cpu.tag V = m.cpu.tag V) ∧
    (m.cpu.tag V = 0x00 → m.runFrame V frame = .error .refused)
end

