-- ==== Sys2Proof/Laws/Flags.lean ====
section
/-! SUPPORT. The small lemmas of the flag byte (10_state.md R36, R37). -/

namespace Sys2Proof.Machine

@[simp] theorem bitC_packFlags (c v z s : Bool) : bitC (packFlags c v z s) = c := by
  cases c <;> cases v <;> cases z <;> cases s <;> rfl
@[simp] theorem bitV_packFlags (c v z s : Bool) : bitV (packFlags c v z s) = v := by
  cases c <;> cases v <;> cases z <;> cases s <;> rfl
@[simp] theorem bitZ_packFlags (c v z s : Bool) : bitZ (packFlags c v z s) = z := by
  cases c <;> cases v <;> cases z <;> cases s <;> rfl
@[simp] theorem bitS_packFlags (c v z s : Bool) : bitS (packFlags c v z s) = s := by
  cases c <;> cases v <;> cases z <;> cases s <;> rfl

/-- A packed flag byte has nothing to mask. -/
@[simp] theorem maskFlags_packFlags (c v z s : Bool) : maskFlags (packFlags c v z s) = packFlags c v z s := by
  cases c <;> cases v <;> cases z <;> cases s <;> rfl

/-- Masking twice is masking once. -/
@[simp] theorem maskFlags_idem (v : Byte) : maskFlags (maskFlags v) = maskFlags v := by
  simp [maskFlags, BitVec.and_assoc]

/-- A masked byte has bits 7..4 clear (10_state.md R37). -/
@[simp] theorem maskFlags_high (v : Byte) : maskFlags v &&& 0xF0 = 0x00 := by
  simp [maskFlags, BitVec.and_assoc]

/-- A flag byte with bits 7..4 clear reads as it is. -/
theorem maskFlags_of_clear (v : Byte) (h : v &&& 0xF0 = 0x00) : maskFlags v = v := by
  revert v; decide

/-- Masking keeps each of the four flags. -/
@[simp] theorem bitC_maskFlags (v : Byte) : bitC (maskFlags v) = bitC v := by simp [bitC, maskFlags]
@[simp] theorem bitV_maskFlags (v : Byte) : bitV (maskFlags v) = bitV v := by simp [bitV, maskFlags]
@[simp] theorem bitZ_maskFlags (v : Byte) : bitZ (maskFlags v) = bitZ v := by simp [bitZ, maskFlags]
@[simp] theorem bitS_maskFlags (v : Byte) : bitS (maskFlags v) = bitS v := by simp [bitS, maskFlags]

/-- A masked flag byte is its four flags. -/
theorem maskFlags_eq_pack (v : Byte) : maskFlags v = packFlags (bitC v) (bitV v) (bitZ v) (bitS v) := by
  revert v; decide

end Sys2Proof.Machine
end

