-- ==== Sys2Proof/Laws/Memory.lean ====
section
/-! SUPPORT. The laws of memory and of the bus: read after write, other bytes unchanged, the canonical form kept. -/

namespace Sys2Proof.Machine

/-! ## Memory -/

/-- No entry lies below the addresses of a list that are all above. -/
theorem Memory.byteAt_of_lt (m : Memory) (a : Nat) (h : ∀ c ∈ m, a < c.1) : m.byteAt a = Memory.unlisted := by
  induction m with
  | nil => rfl
  | cons c rest ih =>
    obtain ⟨k, w⟩ := c
    have hk : a < k := h (k, w) (by simp)
    have hne : k ≠ a := by omega
    simp only [Memory.byteAt, if_neg hne]
    exact ih fun c hc => h c (by simp [hc])

/-- Storing a byte leaves every other address as it was. -/
theorem Memory.byteAt_store_other (m : Memory) (a b : Nat) (v : Byte) (h : a ≠ b) :
    (m.store a v).byteAt b = m.byteAt b := by
  induction m with
  | nil =>
    simp only [Memory.store]
    split <;> simp [Memory.byteAt, h]
  | cons c rest ih =>
    obtain ⟨k, w⟩ := c
    simp only [Memory.store]
    split
    · split <;> simp [Memory.byteAt, h]
    · split
      · next hk => subst hk; split <;> simp [Memory.byteAt, h]
      · simp only [Memory.byteAt, ih]

/-- In a memory of canonical form, a stored byte reads back. -/
theorem Memory.byteAt_store_same (m : Memory) (a : Nat) (v : Byte) (hm : m.wf) :
    (m.store a v).byteAt a = v := by
  induction m with
  | nil =>
    simp only [Memory.store]
    split
    · next hv => simp [Memory.byteAt, hv]
    · simp [Memory.byteAt]
  | cons c rest ih =>
    obtain ⟨k, w⟩ := c
    obtain ⟨hp, hall⟩ := hm
    rw [List.pairwise_cons] at hp
    simp only [Memory.store]
    split
    · next hlt =>
      split
      · next hv =>
        rw [hv]
        refine Memory.byteAt_of_lt _ _ fun c hc => ?_
        rcases List.mem_cons.mp hc with rfl | hc
        · exact hlt
        · exact Nat.lt_trans hlt (hp.1 c hc)
      · simp [Memory.byteAt]
    · split
      · next hk =>
        subst hk
        split
        · next hv =>
          rw [hv]
          exact Memory.byteAt_of_lt _ _ fun c hc => hp.1 c hc
        · simp [Memory.byteAt]
      · next hk =>
        have hne : k ≠ a := fun e => hk e.symm
        simp only [Memory.byteAt, if_neg hne]
        exact ih ⟨hp.2, fun c hc => hall c (List.mem_cons_of_mem _ hc)⟩

/-- Every entry of a memory after a store was there before or is the stored byte. -/
theorem Memory.mem_store (m : Memory) (a : Nat) (v : Byte) (c : Host.Cell) (h : c ∈ m.store a v) :
    c ∈ m ∨ (c = (a, v) ∧ v ≠ Memory.unlisted) := by
  induction m with
  | nil =>
    simp only [Memory.store] at h
    split at h
    · simp at h
    · next hv => exact .inr ⟨by simpa using h, hv⟩
  | cons d rest ih =>
    obtain ⟨k, w⟩ := d
    simp only [Memory.store] at h
    split at h
    · split at h
      · exact .inl h
      · next hv =>
        rcases List.mem_cons.mp h with rfl | h
        · exact .inr ⟨rfl, hv⟩
        · exact .inl h
    · split at h
      · split at h
        · exact .inl (List.mem_cons_of_mem _ h)
        · next hv =>
          rcases List.mem_cons.mp h with rfl | h
          · exact .inr ⟨rfl, hv⟩
          · exact .inl (List.mem_cons_of_mem _ h)
      · rcases List.mem_cons.mp h with rfl | h
        · exact .inl (by simp)
        · rcases ih h with h | h
          · exact .inl (List.mem_cons_of_mem _ h)
          · exact .inr h

/-- A store keeps the addresses strictly rising. -/
theorem Memory.store_rising (m : Memory) (a : Nat) (v : Byte)
    (h : List.Pairwise (fun x y : Host.Cell => x.1 < y.1) m) :
    List.Pairwise (fun x y : Host.Cell => x.1 < y.1) (m.store a v) := by
  induction m with
  | nil => simp only [Memory.store]; split <;> simp
  | cons c rest ih =>
    obtain ⟨k, w⟩ := c
    have hp := List.pairwise_cons.mp h
    simp only [Memory.store]
    split
    · next hlt =>
      split
      · exact h
      · refine List.pairwise_cons.mpr ⟨fun d hd => ?_, h⟩
        rcases List.mem_cons.mp hd with rfl | hd
        · exact hlt
        · exact Nat.lt_trans hlt (hp.1 d hd)
    · next hnlt =>
      split
      · next hk =>
        subst hk
        split
        · exact hp.2
        · exact List.pairwise_cons.mpr ⟨fun d hd => hp.1 d hd, hp.2⟩
      · next hk =>
        refine List.pairwise_cons.mpr ⟨fun d hd => ?_, ih hp.2⟩
        rcases Memory.mem_store rest a v d hd with hd | ⟨rfl, -⟩
        · exact hp.1 d hd
        · show k < a; omega

/-- A store keeps the canonical form. -/
theorem Memory.store_wf (m : Memory) (a : Nat) (v : Byte) (hm : m.wf) (ha : a < 65536) : (m.store a v).wf := by
  refine ⟨Memory.store_rising m a v hm.1, fun c hc => ?_⟩
  rcases Memory.mem_store m a v c hc with hc | ⟨rfl, hv⟩
  · exact hm.2 c hc
  · exact ⟨ha, hv⟩

/-! ## The bus -/

/-- A read leaves memory and the region map as they were. -/
@[simp] theorem Bus.afterRead_mem (b : Bus) (a : Addr) : (b.afterRead a).mem = b.mem := by
  simp only [Bus.afterRead]; split <;> rfl

/-- A read leaves the region map as it was. -/
@[simp] theorem Bus.afterRead_regions (b : Bus) (a : Addr) : (b.afterRead a).regions = b.regions := by
  simp only [Bus.afterRead]; split <;> rfl

/-- A write leaves the region map as it was. -/
@[simp] theorem Bus.write_regions (b : Bus) (a : Addr) (v : Byte) : (b.write a v).regions = b.regions := by
  simp only [Bus.write]; split <;> rfl

/-- What answers at an address depends on the region map alone. -/
theorem Bus.kindAt_congr {b c : Bus} (h : b.regions = c.regions) (a : Addr) : b.kindAt a = c.kindAt a := by
  simp [Bus.kindAt, h]

/-- A read changes no region's kind. -/
@[simp] theorem Bus.afterRead_kindAt (b : Bus) (a x : Addr) : (b.afterRead a).kindAt x = b.kindAt x :=
  Bus.kindAt_congr (Bus.afterRead_regions b a) x

/-- A write changes no region's kind. -/
@[simp] theorem Bus.write_kindAt (b : Bus) (a : Addr) (v : Byte) (x : Addr) : (b.write a v).kindAt x = b.kindAt x :=
  Bus.kindAt_congr (Bus.write_regions b a v) x

/-- What a write does to memory: it stores the byte in RAM and nowhere else. -/
theorem Bus.write_mem (b : Bus) (a : Addr) (v : Byte) :
    (b.write a v).mem = if b.kindAt a = .ram then b.mem.store a.toNat v else b.mem := by
  simp only [Bus.write]; cases b.kindAt a <;> simp

/-- A write keeps the canonical form of memory. -/
theorem Bus.write_wf (b : Bus) (a : Addr) (v : Byte) (h : b.mem.wf) : (b.write a v).mem.wf := by
  rw [Bus.write_mem]
  split
  · exact Memory.store_wf _ _ _ h a.isLt
  · exact h

/-- A write leaves the memory byte of every other address as it was. -/
theorem Bus.write_byteAt_other (b : Bus) (a x : Addr) (v : Byte) (h : a ≠ x) :
    (b.write a v).mem.byteAt x.toNat = b.mem.byteAt x.toNat := by
  have hn : a.toNat ≠ x.toNat := fun e => h (BitVec.eq_of_toNat_eq e)
  rw [Bus.write_mem]
  split
  · exact Memory.byteAt_store_other _ _ _ _ hn
  · rfl

/-- A read in RAM or ROM gives the byte memory holds. -/
theorem Bus.answer_of_memory (b : Bus) (a : Addr) (h : b.kindAt a = .ram ∨ b.kindAt a = .rom) :
    b.answer a = b.mem.byteAt a.toNat := by
  rcases h with h | h <;> simp [Bus.answer, h]

/-- A read in RAM or ROM changes the bus in the last byte read alone. -/
theorem Bus.afterRead_of_memory (b : Bus) (a : Addr) (h : b.kindAt a = .ram ∨ b.kindAt a = .rom) :
    b.afterRead a = { b with last := b.mem.byteAt a.toNat } := by
  rcases h with h | h <;> simp [Bus.afterRead, Bus.answer, h]

/-- Every address of the reference bus is RAM (20_memory.md R92). -/
theorem Bus.reference_kindAt (a : Addr) : Bus.reference.kindAt a = .ram := by
  have h := a.isLt
  have hh : Region.holds { first := 0x0000, last := 0xFFFF, kind := .ram } a = true := by
    simp [Region.holds]
    omega
  have hf : Bus.reference.regions.find? (fun r => r.holds a) = some { first := 0x0000, last := 0xFFFF, kind := .ram } :=
    List.find?_cons_of_pos (p := fun r : Region => r.holds a) hh
  simp only [Bus.kindAt, hf]

end Sys2Proof.Machine
end

