-- ==== Sys2Proof/Laws/State.lean ====
section
/-! SUPPORT. The small lemmas of the state's updates: one per field per update, each true by rfl and tagged simp, so that
no proof unfolds a record update. -/

namespace Sys2Proof.Machine

/-! ## setReg -/

@[simp] theorem State.setReg_regs (s : State) (r : RegIdx) (v : Byte) : (s.setReg r v).cpu.regs = s.cpu.regs.set r.val v := rfl
@[simp] theorem State.setReg_sp (s : State) (r : RegIdx) (v : Byte) : (s.setReg r v).cpu.sp = s.cpu.sp := rfl
@[simp] theorem State.setReg_pc (s : State) (r : RegIdx) (v : Byte) : (s.setReg r v).cpu.pc = s.cpu.pc := rfl
@[simp] theorem State.setReg_f (s : State) (r : RegIdx) (v : Byte) : (s.setReg r v).cpu.f = s.cpu.f := rfl
@[simp] theorem State.setReg_ie (s : State) (r : RegIdx) (v : Byte) : (s.setReg r v).cpu.ie = s.cpu.ie := rfl
@[simp] theorem State.setReg_ies (s : State) (r : RegIdx) (v : Byte) : (s.setReg r v).cpu.ies = s.cpu.ies := rfl
@[simp] theorem State.setReg_halted (s : State) (r : RegIdx) (v : Byte) : (s.setReg r v).cpu.halted = s.cpu.halted := rfl
@[simp] theorem State.setReg_irq (s : State) (r : RegIdx) (v : Byte) : (s.setReg r v).cpu.irq = s.cpu.irq := rfl
@[simp] theorem State.setReg_cyc (s : State) (r : RegIdx) (v : Byte) : (s.setReg r v).cpu.cyc = s.cpu.cyc := rfl
@[simp] theorem State.setReg_variant (s : State) (r : RegIdx) (v : Byte) : (s.setReg r v).cpu.variant = s.cpu.variant := rfl
@[simp] theorem State.setReg_bus (s : State) (r : RegIdx) (v : Byte) : (s.setReg r v).bus = s.bus := rfl
@[simp] theorem State.setReg_obs (s : State) (r : RegIdx) (v : Byte) : (s.setReg r v).obs = s.obs := rfl
@[simp] theorem State.setReg_flags (s : State) (r : RegIdx) (v : Byte) : (s.setReg r v).flags = s.flags := rfl

/-! ## setSP -/

@[simp] theorem State.setSP_regs (s : State) (v : Addr) : (s.setSP v).cpu.regs = s.cpu.regs := rfl
@[simp] theorem State.setSP_sp (s : State) (v : Addr) : (s.setSP v).cpu.sp = v := rfl
@[simp] theorem State.setSP_pc (s : State) (v : Addr) : (s.setSP v).cpu.pc = s.cpu.pc := rfl
@[simp] theorem State.setSP_f (s : State) (v : Addr) : (s.setSP v).cpu.f = s.cpu.f := rfl
@[simp] theorem State.setSP_ie (s : State) (v : Addr) : (s.setSP v).cpu.ie = s.cpu.ie := rfl
@[simp] theorem State.setSP_ies (s : State) (v : Addr) : (s.setSP v).cpu.ies = s.cpu.ies := rfl
@[simp] theorem State.setSP_halted (s : State) (v : Addr) : (s.setSP v).cpu.halted = s.cpu.halted := rfl
@[simp] theorem State.setSP_irq (s : State) (v : Addr) : (s.setSP v).cpu.irq = s.cpu.irq := rfl
@[simp] theorem State.setSP_cyc (s : State) (v : Addr) : (s.setSP v).cpu.cyc = s.cpu.cyc := rfl
@[simp] theorem State.setSP_variant (s : State) (v : Addr) : (s.setSP v).cpu.variant = s.cpu.variant := rfl
@[simp] theorem State.setSP_bus (s : State) (v : Addr) : (s.setSP v).bus = s.bus := rfl
@[simp] theorem State.setSP_obs (s : State) (v : Addr) : (s.setSP v).obs = s.obs := rfl
@[simp] theorem State.setSP_reg (s : State) (v : Addr) (q : RegIdx) : (s.setSP v).reg q = s.reg q := rfl
@[simp] theorem State.setSP_pair (s : State) (v : Addr) (p : PairIdx) : (s.setSP v).pair p = s.pair p := rfl
@[simp] theorem State.setSP_flags (s : State) (v : Addr) : (s.setSP v).flags = s.flags := rfl

/-! ## setPC -/

@[simp] theorem State.setPC_regs (s : State) (v : Addr) : (s.setPC v).cpu.regs = s.cpu.regs := rfl
@[simp] theorem State.setPC_sp (s : State) (v : Addr) : (s.setPC v).cpu.sp = s.cpu.sp := rfl
@[simp] theorem State.setPC_pc (s : State) (v : Addr) : (s.setPC v).cpu.pc = v := rfl
@[simp] theorem State.setPC_f (s : State) (v : Addr) : (s.setPC v).cpu.f = s.cpu.f := rfl
@[simp] theorem State.setPC_ie (s : State) (v : Addr) : (s.setPC v).cpu.ie = s.cpu.ie := rfl
@[simp] theorem State.setPC_ies (s : State) (v : Addr) : (s.setPC v).cpu.ies = s.cpu.ies := rfl
@[simp] theorem State.setPC_halted (s : State) (v : Addr) : (s.setPC v).cpu.halted = s.cpu.halted := rfl
@[simp] theorem State.setPC_irq (s : State) (v : Addr) : (s.setPC v).cpu.irq = s.cpu.irq := rfl
@[simp] theorem State.setPC_cyc (s : State) (v : Addr) : (s.setPC v).cpu.cyc = s.cpu.cyc := rfl
@[simp] theorem State.setPC_variant (s : State) (v : Addr) : (s.setPC v).cpu.variant = s.cpu.variant := rfl
@[simp] theorem State.setPC_bus (s : State) (v : Addr) : (s.setPC v).bus = s.bus := rfl
@[simp] theorem State.setPC_obs (s : State) (v : Addr) : (s.setPC v).obs = s.obs := rfl
@[simp] theorem State.setPC_reg (s : State) (v : Addr) (q : RegIdx) : (s.setPC v).reg q = s.reg q := rfl
@[simp] theorem State.setPC_pair (s : State) (v : Addr) (p : PairIdx) : (s.setPC v).pair p = s.pair p := rfl
@[simp] theorem State.setPC_flags (s : State) (v : Addr) : (s.setPC v).flags = s.flags := rfl

/-! ## setFlags -/

@[simp] theorem State.setFlags_regs (s : State) (v : Byte) : (s.setFlags v).cpu.regs = s.cpu.regs := rfl
@[simp] theorem State.setFlags_sp (s : State) (v : Byte) : (s.setFlags v).cpu.sp = s.cpu.sp := rfl
@[simp] theorem State.setFlags_pc (s : State) (v : Byte) : (s.setFlags v).cpu.pc = s.cpu.pc := rfl
@[simp] theorem State.setFlags_f (s : State) (v : Byte) : (s.setFlags v).cpu.f = maskFlags v := rfl
@[simp] theorem State.setFlags_ie (s : State) (v : Byte) : (s.setFlags v).cpu.ie = s.cpu.ie := rfl
@[simp] theorem State.setFlags_ies (s : State) (v : Byte) : (s.setFlags v).cpu.ies = s.cpu.ies := rfl
@[simp] theorem State.setFlags_halted (s : State) (v : Byte) : (s.setFlags v).cpu.halted = s.cpu.halted := rfl
@[simp] theorem State.setFlags_irq (s : State) (v : Byte) : (s.setFlags v).cpu.irq = s.cpu.irq := rfl
@[simp] theorem State.setFlags_cyc (s : State) (v : Byte) : (s.setFlags v).cpu.cyc = s.cpu.cyc := rfl
@[simp] theorem State.setFlags_variant (s : State) (v : Byte) : (s.setFlags v).cpu.variant = s.cpu.variant := rfl
@[simp] theorem State.setFlags_bus (s : State) (v : Byte) : (s.setFlags v).bus = s.bus := rfl
@[simp] theorem State.setFlags_obs (s : State) (v : Byte) : (s.setFlags v).obs = s.obs := rfl
@[simp] theorem State.setFlags_reg (s : State) (v : Byte) (q : RegIdx) : (s.setFlags v).reg q = s.reg q := rfl
@[simp] theorem State.setFlags_pair (s : State) (v : Byte) (p : PairIdx) : (s.setFlags v).pair p = s.pair p := rfl

/-! ## setIE -/

@[simp] theorem State.setIE_regs (s : State) (v : Bool) : (s.setIE v).cpu.regs = s.cpu.regs := rfl
@[simp] theorem State.setIE_sp (s : State) (v : Bool) : (s.setIE v).cpu.sp = s.cpu.sp := rfl
@[simp] theorem State.setIE_pc (s : State) (v : Bool) : (s.setIE v).cpu.pc = s.cpu.pc := rfl
@[simp] theorem State.setIE_f (s : State) (v : Bool) : (s.setIE v).cpu.f = s.cpu.f := rfl
@[simp] theorem State.setIE_ie (s : State) (v : Bool) : (s.setIE v).cpu.ie = v := rfl
@[simp] theorem State.setIE_ies (s : State) (v : Bool) : (s.setIE v).cpu.ies = s.cpu.ies := rfl
@[simp] theorem State.setIE_halted (s : State) (v : Bool) : (s.setIE v).cpu.halted = s.cpu.halted := rfl
@[simp] theorem State.setIE_irq (s : State) (v : Bool) : (s.setIE v).cpu.irq = s.cpu.irq := rfl
@[simp] theorem State.setIE_cyc (s : State) (v : Bool) : (s.setIE v).cpu.cyc = s.cpu.cyc := rfl
@[simp] theorem State.setIE_variant (s : State) (v : Bool) : (s.setIE v).cpu.variant = s.cpu.variant := rfl
@[simp] theorem State.setIE_bus (s : State) (v : Bool) : (s.setIE v).bus = s.bus := rfl
@[simp] theorem State.setIE_obs (s : State) (v : Bool) : (s.setIE v).obs = s.obs := rfl
@[simp] theorem State.setIE_reg (s : State) (v : Bool) (q : RegIdx) : (s.setIE v).reg q = s.reg q := rfl
@[simp] theorem State.setIE_pair (s : State) (v : Bool) (p : PairIdx) : (s.setIE v).pair p = s.pair p := rfl
@[simp] theorem State.setIE_flags (s : State) (v : Bool) : (s.setIE v).flags = s.flags := rfl

/-! ## setIES -/

@[simp] theorem State.setIES_regs (s : State) (v : Bool) : (s.setIES v).cpu.regs = s.cpu.regs := rfl
@[simp] theorem State.setIES_sp (s : State) (v : Bool) : (s.setIES v).cpu.sp = s.cpu.sp := rfl
@[simp] theorem State.setIES_pc (s : State) (v : Bool) : (s.setIES v).cpu.pc = s.cpu.pc := rfl
@[simp] theorem State.setIES_f (s : State) (v : Bool) : (s.setIES v).cpu.f = s.cpu.f := rfl
@[simp] theorem State.setIES_ie (s : State) (v : Bool) : (s.setIES v).cpu.ie = s.cpu.ie := rfl
@[simp] theorem State.setIES_ies (s : State) (v : Bool) : (s.setIES v).cpu.ies = v := rfl
@[simp] theorem State.setIES_halted (s : State) (v : Bool) : (s.setIES v).cpu.halted = s.cpu.halted := rfl
@[simp] theorem State.setIES_irq (s : State) (v : Bool) : (s.setIES v).cpu.irq = s.cpu.irq := rfl
@[simp] theorem State.setIES_cyc (s : State) (v : Bool) : (s.setIES v).cpu.cyc = s.cpu.cyc := rfl
@[simp] theorem State.setIES_variant (s : State) (v : Bool) : (s.setIES v).cpu.variant = s.cpu.variant := rfl
@[simp] theorem State.setIES_bus (s : State) (v : Bool) : (s.setIES v).bus = s.bus := rfl
@[simp] theorem State.setIES_obs (s : State) (v : Bool) : (s.setIES v).obs = s.obs := rfl
@[simp] theorem State.setIES_reg (s : State) (v : Bool) (q : RegIdx) : (s.setIES v).reg q = s.reg q := rfl
@[simp] theorem State.setIES_pair (s : State) (v : Bool) (p : PairIdx) : (s.setIES v).pair p = s.pair p := rfl
@[simp] theorem State.setIES_flags (s : State) (v : Bool) : (s.setIES v).flags = s.flags := rfl

/-! ## setHalted -/

@[simp] theorem State.setHalted_regs (s : State) (v : Bool) : (s.setHalted v).cpu.regs = s.cpu.regs := rfl
@[simp] theorem State.setHalted_sp (s : State) (v : Bool) : (s.setHalted v).cpu.sp = s.cpu.sp := rfl
@[simp] theorem State.setHalted_pc (s : State) (v : Bool) : (s.setHalted v).cpu.pc = s.cpu.pc := rfl
@[simp] theorem State.setHalted_f (s : State) (v : Bool) : (s.setHalted v).cpu.f = s.cpu.f := rfl
@[simp] theorem State.setHalted_ie (s : State) (v : Bool) : (s.setHalted v).cpu.ie = s.cpu.ie := rfl
@[simp] theorem State.setHalted_ies (s : State) (v : Bool) : (s.setHalted v).cpu.ies = s.cpu.ies := rfl
@[simp] theorem State.setHalted_halted (s : State) (v : Bool) : (s.setHalted v).cpu.halted = v := rfl
@[simp] theorem State.setHalted_irq (s : State) (v : Bool) : (s.setHalted v).cpu.irq = s.cpu.irq := rfl
@[simp] theorem State.setHalted_cyc (s : State) (v : Bool) : (s.setHalted v).cpu.cyc = s.cpu.cyc := rfl
@[simp] theorem State.setHalted_variant (s : State) (v : Bool) : (s.setHalted v).cpu.variant = s.cpu.variant := rfl
@[simp] theorem State.setHalted_bus (s : State) (v : Bool) : (s.setHalted v).bus = s.bus := rfl
@[simp] theorem State.setHalted_obs (s : State) (v : Bool) : (s.setHalted v).obs = s.obs := rfl
@[simp] theorem State.setHalted_reg (s : State) (v : Bool) (q : RegIdx) : (s.setHalted v).reg q = s.reg q := rfl
@[simp] theorem State.setHalted_pair (s : State) (v : Bool) (p : PairIdx) : (s.setHalted v).pair p = s.pair p := rfl
@[simp] theorem State.setHalted_flags (s : State) (v : Bool) : (s.setHalted v).flags = s.flags := rfl

/-! ## setIRQ -/

@[simp] theorem State.setIRQ_regs (s : State) (v : Bool) : (s.setIRQ v).cpu.regs = s.cpu.regs := rfl
@[simp] theorem State.setIRQ_sp (s : State) (v : Bool) : (s.setIRQ v).cpu.sp = s.cpu.sp := rfl
@[simp] theorem State.setIRQ_pc (s : State) (v : Bool) : (s.setIRQ v).cpu.pc = s.cpu.pc := rfl
@[simp] theorem State.setIRQ_f (s : State) (v : Bool) : (s.setIRQ v).cpu.f = s.cpu.f := rfl
@[simp] theorem State.setIRQ_ie (s : State) (v : Bool) : (s.setIRQ v).cpu.ie = s.cpu.ie := rfl
@[simp] theorem State.setIRQ_ies (s : State) (v : Bool) : (s.setIRQ v).cpu.ies = s.cpu.ies := rfl
@[simp] theorem State.setIRQ_halted (s : State) (v : Bool) : (s.setIRQ v).cpu.halted = s.cpu.halted := rfl
@[simp] theorem State.setIRQ_irq (s : State) (v : Bool) : (s.setIRQ v).cpu.irq = v := rfl
@[simp] theorem State.setIRQ_cyc (s : State) (v : Bool) : (s.setIRQ v).cpu.cyc = s.cpu.cyc := rfl
@[simp] theorem State.setIRQ_variant (s : State) (v : Bool) : (s.setIRQ v).cpu.variant = s.cpu.variant := rfl
@[simp] theorem State.setIRQ_bus (s : State) (v : Bool) : (s.setIRQ v).bus = s.bus := rfl
@[simp] theorem State.setIRQ_obs (s : State) (v : Bool) : (s.setIRQ v).obs = s.obs := rfl
@[simp] theorem State.setIRQ_reg (s : State) (v : Bool) (q : RegIdx) : (s.setIRQ v).reg q = s.reg q := rfl
@[simp] theorem State.setIRQ_pair (s : State) (v : Bool) (p : PairIdx) : (s.setIRQ v).pair p = s.pair p := rfl
@[simp] theorem State.setIRQ_flags (s : State) (v : Bool) : (s.setIRQ v).flags = s.flags := rfl

/-! ## charge -/

@[simp] theorem State.charge_regs (s : State) (n : Nat) : (s.charge n).cpu.regs = s.cpu.regs := rfl
@[simp] theorem State.charge_sp (s : State) (n : Nat) : (s.charge n).cpu.sp = s.cpu.sp := rfl
@[simp] theorem State.charge_pc (s : State) (n : Nat) : (s.charge n).cpu.pc = s.cpu.pc := rfl
@[simp] theorem State.charge_f (s : State) (n : Nat) : (s.charge n).cpu.f = s.cpu.f := rfl
@[simp] theorem State.charge_ie (s : State) (n : Nat) : (s.charge n).cpu.ie = s.cpu.ie := rfl
@[simp] theorem State.charge_ies (s : State) (n : Nat) : (s.charge n).cpu.ies = s.cpu.ies := rfl
@[simp] theorem State.charge_halted (s : State) (n : Nat) : (s.charge n).cpu.halted = s.cpu.halted := rfl
@[simp] theorem State.charge_irq (s : State) (n : Nat) : (s.charge n).cpu.irq = s.cpu.irq := rfl
@[simp] theorem State.charge_cyc (s : State) (n : Nat) : (s.charge n).cpu.cyc = s.cpu.cyc + BitVec.ofNat 64 n := rfl
@[simp] theorem State.charge_variant (s : State) (n : Nat) : (s.charge n).cpu.variant = s.cpu.variant := rfl
@[simp] theorem State.charge_bus (s : State) (n : Nat) : (s.charge n).bus = s.bus := rfl
@[simp] theorem State.charge_kind (s : State) (n : Nat) : (s.charge n).obs.kind = s.obs.kind := rfl
@[simp] theorem State.charge_cycles (s : State) (n : Nat) : (s.charge n).obs.cycles = n := rfl
@[simp] theorem State.charge_trace (s : State) (n : Nat) : (s.charge n).obs.trace = s.obs.trace := rfl
@[simp] theorem State.charge_reg (s : State) (n : Nat) (q : RegIdx) : (s.charge n).reg q = s.reg q := rfl
@[simp] theorem State.charge_pair (s : State) (n : Nat) (p : PairIdx) : (s.charge n).pair p = s.pair p := rfl
@[simp] theorem State.charge_flags (s : State) (n : Nat) : (s.charge n).flags = s.flags := rfl

/-! ## setKind -/

@[simp] theorem State.setKind_cpu (s : State) (k : StepKind) : (s.setKind k).cpu = s.cpu := rfl
@[simp] theorem State.setKind_bus (s : State) (k : StepKind) : (s.setKind k).bus = s.bus := rfl
@[simp] theorem State.setKind_kind (s : State) (k : StepKind) : (s.setKind k).obs.kind = some k := rfl
@[simp] theorem State.setKind_cycles (s : State) (k : StepKind) : (s.setKind k).obs.cycles = s.obs.cycles := rfl
@[simp] theorem State.setKind_trace (s : State) (k : StepKind) : (s.setKind k).obs.trace = s.obs.trace := rfl
@[simp] theorem State.setKind_reg (s : State) (k : StepKind) (q : RegIdx) : (s.setKind k).reg q = s.reg q := rfl
@[simp] theorem State.setKind_pair (s : State) (k : StepKind) (p : PairIdx) : (s.setKind k).pair p = s.pair p := rfl
@[simp] theorem State.setKind_flags (s : State) (k : StepKind) : (s.setKind k).flags = s.flags := rfl

/-! ## clearObs -/

@[simp] theorem State.clearObs_cpu (s : State) : (s.clearObs).cpu = s.cpu := rfl
@[simp] theorem State.clearObs_bus (s : State) : (s.clearObs).bus = s.bus := rfl
@[simp] theorem State.clearObs_obs (s : State) : (s.clearObs).obs = StepObs.empty := rfl
@[simp] theorem State.clearObs_reg (s : State) (q : RegIdx) : (s.clearObs).reg q = s.reg q := rfl
@[simp] theorem State.clearObs_pair (s : State) (p : PairIdx) : (s.clearObs).pair p = s.pair p := rfl
@[simp] theorem State.clearObs_flags (s : State) : (s.clearObs).flags = s.flags := rfl

/-! ## memWrite -/

@[simp] theorem State.memWrite_cpu (s : State) (a : Addr) (v : Byte) : (s.memWrite a v).cpu = s.cpu := rfl
@[simp] theorem State.memWrite_bus (s : State) (a : Addr) (v : Byte) : (s.memWrite a v).bus = s.bus.write a v := rfl
@[simp] theorem State.memWrite_kind (s : State) (a : Addr) (v : Byte) : (s.memWrite a v).obs.kind = s.obs.kind := rfl
@[simp] theorem State.memWrite_cycles (s : State) (a : Addr) (v : Byte) : (s.memWrite a v).obs.cycles = s.obs.cycles := rfl
@[simp] theorem State.memWrite_trace (s : State) (a : Addr) (v : Byte) :
    (s.memWrite a v).obs.trace = s.obs.trace ++ [.write a v] := rfl
@[simp] theorem State.memWrite_reg (s : State) (a : Addr) (v : Byte) (q : RegIdx) : (s.memWrite a v).reg q = s.reg q := rfl
@[simp] theorem State.memWrite_pair (s : State) (a : Addr) (v : Byte) (p : PairIdx) : (s.memWrite a v).pair p = s.pair p := rfl
@[simp] theorem State.memWrite_flags (s : State) (a : Addr) (v : Byte) : (s.memWrite a v).flags = s.flags := rfl

/-! ## A read access -/

@[simp] theorem State.memRead_value (s : State) (a : Addr) : (s.memRead a).1 = s.bus.answer a := rfl
@[simp] theorem State.memRead_cpu (s : State) (a : Addr) : (s.memRead a).2.cpu = s.cpu := rfl
@[simp] theorem State.memRead_bus (s : State) (a : Addr) : (s.memRead a).2.bus = s.bus.afterRead a := rfl
@[simp] theorem State.memRead_kind (s : State) (a : Addr) : (s.memRead a).2.obs.kind = s.obs.kind := rfl
@[simp] theorem State.memRead_cycles (s : State) (a : Addr) : (s.memRead a).2.obs.cycles = s.obs.cycles := rfl
@[simp] theorem State.memRead_trace (s : State) (a : Addr) :
    (s.memRead a).2.obs.trace = s.obs.trace ++ [.read a (s.bus.answer a)] := rfl
@[simp] theorem State.memRead_reg (s : State) (a : Addr) (q : RegIdx) : (s.memRead a).2.reg q = s.reg q := rfl
@[simp] theorem State.memRead_pair (s : State) (a : Addr) (p : PairIdx) : (s.memRead a).2.pair p = s.pair p := rfl
@[simp] theorem State.memRead_flags (s : State) (a : Addr) : (s.memRead a).2.flags = s.flags := rfl

/-! ## Registers after a register write -/

/-- A register reads back what was written to it. -/
@[simp] theorem State.setReg_reg_same (s : State) (r : RegIdx) (v : Byte) : (s.setReg r v).reg r = v := by
  simp [State.reg]

/-- Another register is unchanged. -/
theorem State.setReg_reg_other (s : State) (r q : RegIdx) (v : Byte) (h : r ≠ q) :
    (s.setReg r v).reg q = s.reg q := by
  have h' : r.val ≠ q.val := fun e => h (Fin.ext e)
  simp [State.reg, h']

/-- Two states with the same parts are the same. -/
theorem State.ext_parts {s t : State} (hc : s.cpu = t.cpu) (hb : s.bus = t.bus) (ho : s.obs = t.obs) : s = t := by
  cases s; cases t; simp_all

end Sys2Proof.Machine
end

