-- ==== Sys2Proof/Laws/Ops.lean ====
section
/-! SUPPORT. One lemma per shared operation that says once everything it can do: the stack, trap entry and return, fetch,
and the plan of a step. -/

namespace Sys2Proof.Machine

/-! ## Halves of a 16-bit value -/

/-- The high byte of a word is its first part. -/
@[simp] theorem highByte_word16 (hi lo : Byte) : highByte (word16 hi lo) = hi := by
  have h : BitVec.extractLsb' 8 8 (hi ++ lo : BitVec (8 + 8)) = hi := BitVec.extractLsb'_append_eq_left
  exact h

/-- The low byte of a word is its second part. -/
@[simp] theorem lowByte_word16 (hi lo : Byte) : lowByte (word16 hi lo) = lo := by
  have h : BitVec.extractLsb' 0 8 (hi ++ lo : BitVec (8 + 8)) = lo := BitVec.extractLsb'_append_eq_right
  exact h

/-- A word is its halves. -/
@[simp] theorem word16_halves (v : Addr) : word16 (highByte v) (lowByte v) = v := by
  apply BitVec.eq_of_getLsbD_eq
  intro i hi
  simp only [word16, highByte, lowByte, BitVec.getLsbD_append, BitVec.getLsbD_extractLsb']
  by_cases h : i < 8
  · simp [h]
  · have h2 : i - 8 < 8 := by omega
    simp [h, h2, show 8 + (i - 8) = i by omega]

/-! ## The stack -/

/-- Everything push8 does (41_data_movement.md R190). -/
theorem State.push8_eq (s : State) (v : Byte) :
    s.push8 v =
      { cpu := { s.cpu with sp := s.cpu.sp - 1 },
        bus := s.bus.write (s.cpu.sp - 1) v,
        obs := { s.obs with trace := s.obs.trace ++ [.write (s.cpu.sp - 1) v] } } := rfl

/-- Everything push16 does: the high byte at SP - 1, then the low byte at SP - 2 (41_data_movement.md R191). -/
theorem State.push16_eq (s : State) (v : Addr) :
    s.push16 v =
      { cpu := { s.cpu with sp := s.cpu.sp - 2 },
        bus := (s.bus.write (s.cpu.sp - 1) (highByte v)).write (s.cpu.sp - 2) (lowByte v),
        obs := { s.obs with trace := s.obs.trace ++
          [.write (s.cpu.sp - 1) (highByte v), .write (s.cpu.sp - 2) (lowByte v)] } } := by
  have h : s.cpu.sp - 1 - 1 = s.cpu.sp - 2 := by bv_omega
  simp only [State.push16, State.push8_eq, h, List.append_assoc, List.cons_append, List.nil_append]

/-- Everything pop8 does (41_data_movement.md R192). -/
theorem State.pop8_eq (s : State) :
    s.pop8 = (s.bus.answer s.cpu.sp,
      { cpu := { s.cpu with sp := s.cpu.sp + 1 }, bus := s.bus.afterRead s.cpu.sp,
        obs := { s.obs with trace := s.obs.trace ++ [.read s.cpu.sp (s.bus.answer s.cpu.sp)] } }) := rfl

/-- Everything pop16 does: the low byte at SP, then the high byte at SP + 1 (41_data_movement.md R193). -/
theorem State.pop16_eq (s : State) :
    s.pop16 = (word16 ((s.bus.afterRead s.cpu.sp).answer (s.cpu.sp + 1)) (s.bus.answer s.cpu.sp),
      { cpu := { s.cpu with sp := s.cpu.sp + 2 },
        bus := (s.bus.afterRead s.cpu.sp).afterRead (s.cpu.sp + 1),
        obs := { s.obs with trace := s.obs.trace ++
          [.read s.cpu.sp (s.bus.answer s.cpu.sp),
           .read (s.cpu.sp + 1) ((s.bus.afterRead s.cpu.sp).answer (s.cpu.sp + 1))] } }) := by
  have h : s.cpu.sp + 1 + 1 = s.cpu.sp + 2 := by bv_omega
  simp only [State.pop16, State.pop8_eq, h, List.append_assoc, List.cons_append, List.nil_append]

/-- A popped word is the 16-bit read at SP (20_memory.md R77), with SP moved past it. -/
theorem State.pop16_memRead16 (s : State) :
    s.pop16 = ((s.memRead16 s.cpu.sp).1, (s.memRead16 s.cpu.sp).2.setSP (s.cpu.sp + 2)) := by
  rw [State.pop16_eq]
  simp [State.memRead16, State.memRead, State.setSP, Bus.read]

/-! ## Traps -/

/-- Everything trap entry does (60_exceptions.md R292). -/
theorem State.enterTrap_eq (s : State) (vector ret : Addr) :
    s.enterTrap vector ret =
      { cpu := { s.cpu with sp := s.cpu.sp - 3, pc := vector, ie := false, ies := false, halted := false },
        bus := ((s.bus.write (s.cpu.sp - 1) (highByte ret)).write (s.cpu.sp - 2) (lowByte ret)).write
          (s.cpu.sp - 3) s.flags,
        obs := { s.obs with trace := s.obs.trace ++
          [.write (s.cpu.sp - 1) (highByte ret), .write (s.cpu.sp - 2) (lowByte ret),
           .write (s.cpu.sp - 3) s.flags] } } := by
  have h : s.cpu.sp - 2 - 1 = s.cpu.sp - 3 := by bv_omega
  simp only [State.enterTrap, State.push16_eq, State.push8_eq, State.setIE, State.setIES, State.setHalted, State.setPC,
    h, List.append_assoc, List.cons_append, List.nil_append]

/-- Everything the return from a trap does (43_system.md R265). -/
theorem State.returnFromTrap_eq (s : State) :
    s.returnFromTrap =
      { cpu := { s.cpu with
          sp := s.cpu.sp + 3, f := maskFlags (s.bus.answer s.cpu.sp), ie := true,
          pc := word16 (((s.bus.afterRead s.cpu.sp).afterRead (s.cpu.sp + 1)).answer (s.cpu.sp + 2))
            ((s.bus.afterRead s.cpu.sp).answer (s.cpu.sp + 1)) },
        bus := ((s.bus.afterRead s.cpu.sp).afterRead (s.cpu.sp + 1)).afterRead (s.cpu.sp + 2),
        obs := { s.obs with trace := s.obs.trace ++
          [.read s.cpu.sp (s.bus.answer s.cpu.sp),
           .read (s.cpu.sp + 1) ((s.bus.afterRead s.cpu.sp).answer (s.cpu.sp + 1)),
           .read (s.cpu.sp + 2)
             (((s.bus.afterRead s.cpu.sp).afterRead (s.cpu.sp + 1)).answer (s.cpu.sp + 2))] } } := by
  have h1 : s.cpu.sp + 1 + 1 = s.cpu.sp + 2 := by bv_omega
  have h2 : s.cpu.sp + 1 + 2 = s.cpu.sp + 3 := by bv_omega
  simp only [State.returnFromTrap, State.pop8_eq, State.pop16_eq, State.setFlags, State.setPC, State.setIE, h1, h2,
    List.append_assoc, List.cons_append, List.nil_append]

/-! ## Fetch and the start of a step -/

/-- A fetch changes PC and no other field of the CPU record (30_encoding.md R114). -/
theorem State.fetch_cpu (s : State) :
    s.fetch.state.cpu = { s.cpu with pc := s.cpu.pc + BitVec.ofNat 16 (instrLen s.fetch.op) } := by
  simp only [State.fetch, State.readIf, State.setPC]
  split <;> split <;> rfl

/-- A fetch leaves memory and the region map as they were. -/
theorem State.fetch_mem (s : State) :
    s.fetch.state.bus.mem = s.bus.mem ∧ s.fetch.state.bus.regions = s.bus.regions := by
  simp only [State.fetch, State.readIf, State.setPC]
  split <;> split <;> simp

/-- REF8's operations are defined. -/
theorem Cpu.refusal_ref8 {c : Cpu} (h : c.variant = ref8Tag) : c.refusal = none := by simp [Cpu.refusal, h]

/-- Before a load they are not. -/
theorem Cpu.refusal_preLoad {c : Cpu} (h : c.variant = noVariantTag) : c.refusal = some .preLoadIdle := by
  simp [Cpu.refusal, h, ref8Tag, noVariantTag]

/-- With another tag they are not defined here. -/
theorem Cpu.refusal_console {c : Cpu} (h : c.variant ≠ ref8Tag) (hn : c.variant ≠ noVariantTag) :
    c.refusal = some (.consoleVariant c.variant) := by
  simp [Cpu.refusal, h, hn]

/-- What a step is about to do, case by case (60_exceptions.md R290, R293, R308). -/
theorem State.plan_cases (s : State) :
    (s.cpu.variant = noVariantTag ∧ s.plan = .stop .preLoadIdle) ∨
    (s.cpu.variant ≠ ref8Tag ∧ s.cpu.variant ≠ noVariantTag ∧ s.plan = .stop (.consoleVariant s.cpu.variant)) ∨
    (s.cpu.variant = ref8Tag ∧ s.cpu.accepts = true ∧ s.plan = .done s.clearObs.acknowledge) ∨
    (s.cpu.variant = ref8Tag ∧ s.cpu.accepts = false ∧ s.cpu.halted = true ∧ s.cpu.irq = true ∧
      s.plan = .done s.clearObs.wake) ∨
    (s.cpu.variant = ref8Tag ∧ s.cpu.accepts = false ∧ s.cpu.halted = true ∧ s.cpu.irq = false ∧
      s.plan = .done s.clearObs.idle) ∨
    (s.cpu.variant = ref8Tag ∧ s.cpu.accepts = false ∧ s.cpu.halted = false ∧
      s.plan = s.clearObs.startInstr) := by
  by_cases hv : s.cpu.variant = ref8Tag
  · cases ha : s.cpu.accepts <;> cases hh : s.cpu.halted <;> cases hi : s.cpu.irq <;>
      simp [State.plan, Cpu.refusal_ref8 hv, State.planRef8, State.haltedStep, hv, ha, hh, hi, ref8Tag, noVariantTag]
  · by_cases hn : s.cpu.variant = noVariantTag
    · exact .inl ⟨hn, by simp [State.plan, Cpu.refusal_preLoad hn]⟩
    · exact .inr (.inl ⟨hv, hn, by simp [State.plan, Cpu.refusal_console hv hn]⟩)

end Sys2Proof.Machine
end

