-- ==== Sys2Proof/Laws/PerInstr.lean ====
section
/-! SUPPORT. The per-instruction family EncodedLength: the encoding of a well-formed instruction has the length its opcode
byte announces (30_encoding.md R112), one lemma per constructor. -/

namespace Sys2Proof.Laws

/-- The encoding of `i` has the length that its opcode byte announces. -/
def EncodedLength.Statement (i : Instr) : Prop :=
  i.wellFormed = true → (encode i).length = instrLen (opcodeOf i)

theorem EncodedLength.nop : EncodedLength.Statement (.nop) := fun _ => rfl
theorem EncodedLength.halt : EncodedLength.Statement (.halt) := fun _ => rfl
theorem EncodedLength.di : EncodedLength.Statement (.di) := fun _ => rfl
theorem EncodedLength.ei : EncodedLength.Statement (.ei) := fun _ => rfl
theorem EncodedLength.swi : EncodedLength.Statement (.swi) := fun _ => rfl
theorem EncodedLength.clc : EncodedLength.Statement (.clc) := fun _ => rfl
theorem EncodedLength.sec : EncodedLength.Statement (.sec) := fun _ => rfl
theorem EncodedLength.cmc : EncodedLength.Statement (.cmc) := fun _ => rfl
theorem EncodedLength.ldi (r : RegIdx) (imm : Byte) : EncodedLength.Statement (.ldi r imm) := by
  intro _; fin_cases r <;> rfl
theorem EncodedLength.ld (r : RegIdx) (abs : Addr) : EncodedLength.Statement (.ld r abs) := by
  intro _; fin_cases r <;> rfl
theorem EncodedLength.st (r : RegIdx) (abs : Addr) : EncodedLength.Statement (.st r abs) := by
  intro _; fin_cases r <;> rfl
theorem EncodedLength.ldx (r : RegIdx) : EncodedLength.Statement (.ldx r) := by
  intro _; fin_cases r <;> rfl
theorem EncodedLength.stx (r : RegIdx) : EncodedLength.Statement (.stx r) := by
  intro _; fin_cases r <;> rfl
theorem EncodedLength.ldw (p : PairIdx) (imm : Addr) : EncodedLength.Statement (.ldw p imm) := by
  intro _; fin_cases p <;> rfl
theorem EncodedLength.incw (p : PairIdx) : EncodedLength.Statement (.incw p) := by
  intro _; fin_cases p <;> rfl
theorem EncodedLength.decw (p : PairIdx) : EncodedLength.Statement (.decw p) := by
  intro _; fin_cases p <;> rfl
theorem EncodedLength.ldsp (imm : Addr) : EncodedLength.Statement (.ldsp imm) := fun _ => rfl
theorem EncodedLength.movsp : EncodedLength.Statement (.movsp) := fun _ => rfl
theorem EncodedLength.getsp : EncodedLength.Statement (.getsp) := fun _ => rfl
theorem EncodedLength.illegal3F : EncodedLength.Statement (.illegal3F) := fun _ => rfl
theorem EncodedLength.mov (d : RegIdx) (r : RegIdx) : EncodedLength.Statement (.mov d r) := by
  show _ → 1 = instrLen (BitVec.ofNat 8 (0x40 + 8 * d.val + r.val))
  intro _; revert d r; decide
theorem EncodedLength.add (r : RegIdx) : EncodedLength.Statement (.add r) := by
  intro _; fin_cases r <;> rfl
theorem EncodedLength.adc (r : RegIdx) : EncodedLength.Statement (.adc r) := by
  intro _; fin_cases r <;> rfl
theorem EncodedLength.sub (r : RegIdx) : EncodedLength.Statement (.sub r) := by
  intro _; fin_cases r <;> rfl
theorem EncodedLength.sbc (r : RegIdx) : EncodedLength.Statement (.sbc r) := by
  intro _; fin_cases r <;> rfl
theorem EncodedLength.and (r : RegIdx) : EncodedLength.Statement (.and r) := by
  intro _; fin_cases r <;> rfl
theorem EncodedLength.xor (r : RegIdx) : EncodedLength.Statement (.xor r) := by
  intro _; fin_cases r <;> rfl
theorem EncodedLength.or (r : RegIdx) : EncodedLength.Statement (.or r) := by
  intro _; fin_cases r <;> rfl
theorem EncodedLength.cmp (r : RegIdx) : EncodedLength.Statement (.cmp r) := by
  intro _; fin_cases r <;> rfl
theorem EncodedLength.addi (imm : Byte) : EncodedLength.Statement (.addi imm) := fun _ => rfl
theorem EncodedLength.adci (imm : Byte) : EncodedLength.Statement (.adci imm) := fun _ => rfl
theorem EncodedLength.subi (imm : Byte) : EncodedLength.Statement (.subi imm) := fun _ => rfl
theorem EncodedLength.sbci (imm : Byte) : EncodedLength.Statement (.sbci imm) := fun _ => rfl
theorem EncodedLength.andi (imm : Byte) : EncodedLength.Statement (.andi imm) := fun _ => rfl
theorem EncodedLength.xori (imm : Byte) : EncodedLength.Statement (.xori imm) := fun _ => rfl
theorem EncodedLength.ori (imm : Byte) : EncodedLength.Statement (.ori imm) := fun _ => rfl
theorem EncodedLength.cmpi (imm : Byte) : EncodedLength.Statement (.cmpi imm) := fun _ => rfl
theorem EncodedLength.beq (rel : Byte) : EncodedLength.Statement (.beq rel) := fun _ => rfl
theorem EncodedLength.bne (rel : Byte) : EncodedLength.Statement (.bne rel) := fun _ => rfl
theorem EncodedLength.bcs (rel : Byte) : EncodedLength.Statement (.bcs rel) := fun _ => rfl
theorem EncodedLength.bcc (rel : Byte) : EncodedLength.Statement (.bcc rel) := fun _ => rfl
theorem EncodedLength.bmi (rel : Byte) : EncodedLength.Statement (.bmi rel) := fun _ => rfl
theorem EncodedLength.bpl (rel : Byte) : EncodedLength.Statement (.bpl rel) := fun _ => rfl
theorem EncodedLength.bvs (rel : Byte) : EncodedLength.Statement (.bvs rel) := fun _ => rfl
theorem EncodedLength.bvc (rel : Byte) : EncodedLength.Statement (.bvc rel) := fun _ => rfl
theorem EncodedLength.inc (r : RegIdx) : EncodedLength.Statement (.inc r) := by
  intro _; fin_cases r <;> rfl
theorem EncodedLength.dec (r : RegIdx) : EncodedLength.Statement (.dec r) := by
  intro _; fin_cases r <;> rfl
theorem EncodedLength.shl : EncodedLength.Statement (.shl) := fun _ => rfl
theorem EncodedLength.shr : EncodedLength.Statement (.shr) := fun _ => rfl
theorem EncodedLength.sar : EncodedLength.Statement (.sar) := fun _ => rfl
theorem EncodedLength.rcl : EncodedLength.Statement (.rcl) := fun _ => rfl
theorem EncodedLength.rcr : EncodedLength.Statement (.rcr) := fun _ => rfl
theorem EncodedLength.not : EncodedLength.Statement (.not) := fun _ => rfl
theorem EncodedLength.neg : EncodedLength.Statement (.neg) := fun _ => rfl
theorem EncodedLength.swap : EncodedLength.Statement (.swap) := fun _ => rfl
theorem EncodedLength.push (p : PairIdx) : EncodedLength.Statement (.push p) := by
  intro _; fin_cases p <;> rfl
theorem EncodedLength.pop (p : PairIdx) : EncodedLength.Statement (.pop p) := by
  intro _; fin_cases p <;> rfl
theorem EncodedLength.jmp (abs : Addr) : EncodedLength.Statement (.jmp abs) := fun _ => rfl
theorem EncodedLength.call (abs : Addr) : EncodedLength.Statement (.call abs) := fun _ => rfl
theorem EncodedLength.ret : EncodedLength.Statement (.ret) := fun _ => rfl
theorem EncodedLength.reti : EncodedLength.Statement (.reti) := fun _ => rfl
theorem EncodedLength.bra (rel : Byte) : EncodedLength.Statement (.bra rel) := fun _ => rfl
theorem EncodedLength.jmpi : EncodedLength.Statement (.jmpi) := fun _ => rfl
theorem EncodedLength.calli : EncodedLength.Statement (.calli) := fun _ => rfl
theorem EncodedLength.pushf : EncodedLength.Statement (.pushf) := fun _ => rfl
theorem EncodedLength.popf : EncodedLength.Statement (.popf) := fun _ => rfl
theorem EncodedLength.mul : EncodedLength.Statement (.mul) := fun _ => rfl
theorem EncodedLength.div : EncodedLength.Statement (.div) := fun _ => rfl
theorem EncodedLength.illegalFB : EncodedLength.Statement (.illegalFB) := fun _ => rfl
theorem EncodedLength.illegalFC (op : Byte) : EncodedLength.Statement (.illegalFC op) := by
  show isReservedHigh op = true → 1 = instrLen op
  revert op; decide

end Sys2Proof.Laws
end

