-- ==== Sys2Proof/Machine/Assembler.lean ====
section
/-! DEFINITION. The assembler of REF8: its syntax (30_encoding.md R118), its directives (R119) and its pseudo-instructions
(R120), from the characters of a source text to the bytes it places. It is no part of a step; what R118 leaves open about
expressions is log 14. -/

namespace Sys2Proof.Machine

/-! ## Tokens -/

/-- Why a text does not assemble. -/
inductive AsmError where
  /-- A character that no token begins with. -/
  | badCharacter (c : Char)
  /-- A word that begins with a digit and is no number. -/
  | badNumber (w : List Char)
  /-- A line that has none of the forms of 30_encoding.md R118 and R119. -/
  | badLine
  /-- An expression names a symbol that is not defined. -/
  | undefinedSymbol (w : List Char)
  /-- A symbol defined a second time. -/
  | duplicateSymbol (w : List Char)
  /-- A branch target whose offset is outside -128 .. 127 (30_encoding.md R118). -/
  | branchOutOfRange (offset : Int)
  /-- A value that does not fit its field. -/
  | valueOutOfRange (v : Int)
  deriving DecidableEq, Repr

/-- A token of a line. -/
inductive Token where
  | word (w : List Char)
  | hash
  | leftBracket
  | rightBracket
  | comma
  | colon
  | plus
  | minus
  | less
  | greater
  | dollar
  deriving DecidableEq, Repr

/-- A character of a name or a number. DESIGN CHOICE: the spec gives no form of a symbol name; the model takes letters, digits
and `_` (log 14). -/
def isWordChar (c : Char) : Bool := c.isAlphanum || c == '_'

/-- The tokens a character alone stands for; a blank stands for none. -/
def charTokens (c : Char) : Option (List Token) :=
  if c == ' ' || c == '\t' || c == '\r' then some []
  else if c == '#' then some [.hash]
  else if c == '[' then some [.leftBracket]
  else if c == ']' then some [.rightBracket]
  else if c == ',' then some [.comma]
  else if c == ':' then some [.colon]
  else if c == '+' then some [.plus]
  else if c == '-' then some [.minus]
  else if c == '<' then some [.less]
  else if c == '>' then some [.greater]
  else if c == '$' then some [.dollar]
  else none

/-- The word collected so far (its characters reversed), if any. -/
def flushWord : List Char → List Token
  | [] => []
  | acc => [.word acc.reverse]

/-- The tokens of a line; a `;` begins a comment (30_encoding.md R118). -/
def lexLine : List Char → List Char → Except AsmError (List Token)
  | [], acc => .ok (flushWord acc)
  | c :: cs, acc =>
    if isWordChar c then lexLine cs (c :: acc)
    else if c == ';' then .ok (flushWord acc)
    else
      match charTokens c with
      | none => .error (.badCharacter c)
      | some ts =>
        match lexLine cs [] with
        | .error e => .error e
        | .ok rest => .ok (flushWord acc ++ ts ++ rest)

/-! ## Expressions -/

/-- An expression: a number, a symbol, `$`, a sum, a difference, the low or the high byte (30_encoding.md R118). -/
inductive Expr where
  | num (n : Nat)
  | sym (w : List Char)
  | here
  | add (a b : Expr)
  | sub (a b : Expr)
  | low (a : Expr)
  | high (a : Expr)
  deriving DecidableEq, Repr

/-- The value of a digit, letters a to f in either case. -/
def digitValue (c : Char) : Option Nat :=
  let n := c.toNat
  if 48 ≤ n ∧ n ≤ 57 then some (n - 48)
  else if 97 ≤ n ∧ n ≤ 102 then some (n - 87)
  else if 65 ≤ n ∧ n ≤ 70 then some (n - 55)
  else none

/-- The number a list of digits writes after `acc` in a base. -/
def parseDigits (base : Nat) : List Char → Nat → Option Nat
  | [], acc => some acc
  | c :: cs, acc =>
    match digitValue c with
    | none => none
    | some d => if d < base then parseDigits base cs (acc * base + d) else none

/-- Numbers are decimal, `0x` hexadecimal or `0b` binary (30_encoding.md R118). -/
def parseNumber : List Char → Option Nat
  | '0' :: 'x' :: d :: ds => parseDigits 16 (d :: ds) 0
  | '0' :: 'b' :: d :: ds => parseDigits 2 (d :: ds) 0
  | ds => parseDigits 10 ds 0

/-- The word begins with a digit, so that it is a number. -/
def startsWithDigit : List Char → Bool
  | [] => false
  | c :: _ => c.isDigit

/-- A token as a term of an expression. -/
def parseTerm : Token → Except AsmError Expr
  | .word w =>
    if startsWithDigit w then
      match parseNumber w with
      | some n => .ok (.num n)
      | none => .error (.badNumber w)
    else .ok (.sym w)
  | .dollar => .ok .here
  | _ => .error .badLine

/-- The rest of a sum, whose value so far is `acc`. -/
def parseSum : List Token → Expr → Except AsmError Expr
  | [], acc => .ok acc
  | .plus :: t :: rest, acc =>
    match parseTerm t with
    | .ok e => parseSum rest (.add acc e)
    | .error e => .error e
  | .minus :: t :: rest, acc =>
    match parseTerm t with
    | .ok e => parseSum rest (.sub acc e)
    | .error e => .error e
  | _, _ => .error .badLine

/-- A sum of terms. DESIGN CHOICE: a `-` may stand before the first, a `+` may not: it is a bad line (log 14). -/
def parseSigned : List Token → Except AsmError Expr
  | .minus :: t :: rest =>
    match parseTerm t with
    | .ok e => parseSum rest (.sub (.num 0) e)
    | .error e => .error e
  | t :: rest =>
    match parseTerm t with
    | .ok e => parseSum rest e
    | .error e => .error e
  | [] => .error .badLine

/-- A whole expression; `<` and `>` take the low or high byte of all that follows (log 14). -/
def parseExpr : List Token → Except AsmError Expr
  | .less :: rest => (parseSigned rest).map .low
  | .greater :: rest => (parseSigned rest).map .high
  | ts => parseSigned ts

/-- A symbol and its value. -/
abbrev SymbolTable := List (List Char × Int)

/-- The value of a symbol; labels are case-sensitive (30_encoding.md R118). -/
def SymbolTable.value (env : SymbolTable) (w : List Char) : Option Int :=
  match env with
  | [] => none
  | (n, v) :: rest => if n = w then some v else SymbolTable.value rest w

/-- The value of an expression at an address. -/
def Expr.eval (env : SymbolTable) (here : Nat) : Expr → Except AsmError Int
  | .num n => .ok n
  | .sym w =>
    match env.value w with
    | some v => .ok v
    | none => .error (.undefinedSymbol w)
  | .here => .ok here
  | .add a b =>
    match a.eval env here, b.eval env here with
    | .ok x, .ok y => .ok (x + y)
    | .error e, _ => .error e
    | _, .error e => .error e
  | .sub a b =>
    match a.eval env here, b.eval env here with
    | .ok x, .ok y => .ok (x - y)
    | .error e, _ => .error e
    | _, .error e => .error e
  | .low a => (a.eval env here).map (fun v => v % 256)
  | .high a => (a.eval env here).map (fun v => v / 256 % 256)

/-! ## Operands and instruction forms -/

/-- An operand as it is written (30_encoding.md R118). -/
inductive Operand where
  /-- `R0` to `R7`, or `A` for R0. -/
  | reg (r : RegIdx)
  /-- `P0` to `P3`. -/
  | pair (p : PairIdx)
  /-- `#expr`. -/
  | imm (e : Expr)
  /-- `[expr]`. -/
  | abs (e : Expr)
  /-- `[P3]`. -/
  | pointer
  /-- A bare expression. -/
  | value (e : Expr)
  deriving DecidableEq, Repr

/-- The word in capitals: mnemonics and register names are not case-sensitive (30_encoding.md R118). -/
def upperWord (w : List Char) : List Char := w.map Char.toUpper

/-- The entry of a table of names, if the word is one of them. -/
def lookupName {α : Type} (table : List (String × α)) (w : List Char) : Option α :=
  match table with
  | [] => none
  | (n, x) :: rest => if n.toList = upperWord w then some x else lookupName rest w

/-- The register names (30_encoding.md R118). -/
def registerNames : List (String × RegIdx) :=
  [("R0", 0), ("R1", 1), ("R2", 2), ("R3", 3), ("R4", 4), ("R5", 5), ("R6", 6), ("R7", 7), ("A", 0)]

/-- The pair names (30_encoding.md R118). -/
def pairNames : List (String × PairIdx) := [("P0", 0), ("P1", 1), ("P2", 2), ("P3", 3)]

/-- The tokens between the brackets of `[ … ]`. -/
def insideBrackets : List Token → Option (List Token)
  | [] => none
  | [.rightBracket] => some []
  | t :: rest => (insideBrackets rest).map (fun ts => t :: ts)

/-- An operand from its tokens. DESIGN CHOICE: a bare word that is a register or pair name is that register or pair, and a word
that begins with a digit is a number; so a label of either form can be defined, but not named as a bare operand (log 14). -/
def parseOperand : List Token → Except AsmError Operand
  | [.word w] =>
    match lookupName registerNames w, lookupName pairNames w with
    | some r, _ => .ok (.reg r)
    | none, some p => .ok (.pair p)
    | none, none => (parseExpr [.word w]).map .value
  | .hash :: ts => (parseExpr ts).map .imm
  | .leftBracket :: ts =>
    match insideBrackets ts with
    | none => .error .badLine
    | some [.word w] => if lookupName pairNames w = some 3 then .ok .pointer else (parseExpr [.word w]).map .abs
    | some inner => (parseExpr inner).map .abs
  | ts => (parseExpr ts).map .value

/-- An instruction whose operand value is still an expression. -/
inductive Form where
  /-- Nothing is left to evaluate. -/
  | whole (i : Instr)
  /-- An 8-bit immediate. -/
  | byte (make : Byte → Instr) (e : Expr)
  /-- A 16-bit immediate or address. -/
  | word (make : Addr → Instr) (e : Expr)
  /-- A branch target (30_encoding.md R118). -/
  | branch (make : Byte → Instr) (target : Expr)

/-- The length of the instruction (30_encoding.md R101). -/
def Form.length : Form → Nat
  | .whole i => (encode i).length
  | .byte _ _ => 2
  | .word _ _ => 3
  | .branch _ _ => 2

/-- Instructions without operands, and the pseudo-instructions CLRA and TSTA (30_encoding.md R110, R120). -/
def plainForms : List (String × Instr) :=
  [("NOP", .nop), ("HALT", .halt), ("DI", .di), ("EI", .ei), ("SWI", .swi), ("CLC", .clc), ("SEC", .sec), ("CMC", .cmc),
   ("MOVSP", .movsp), ("GETSP", .getsp), ("SHL", .shl), ("SHR", .shr), ("SAR", .sar), ("RCL", .rcl), ("RCR", .rcr),
   ("NOT", .not), ("NEG", .neg), ("SWAP", .swap), ("RET", .ret), ("RETI", .reti), ("JMPI", .jmpi), ("CALLI", .calli),
   ("PUSHF", .pushf), ("POPF", .popf), ("MUL", .mul), ("DIV", .div), ("CLRA", .xor 0), ("TSTA", .or 0)]

/-- Instructions with one register operand, and CLR Rr (30_encoding.md R110, R120). -/
def registerForms : List (String × (RegIdx → Instr)) :=
  [("ADD", .add), ("ADC", .adc), ("SUB", .sub), ("SBC", .sbc), ("AND", .and), ("XOR", .xor), ("OR", .or), ("CMP", .cmp),
   ("INC", .inc), ("DEC", .dec), ("CLR", fun r => .ldi r 0x00)]

/-- Instructions with one pair operand (30_encoding.md R110). -/
def pairForms : List (String × (PairIdx → Instr)) :=
  [("INCW", .incw), ("DECW", .decw), ("PUSH", .push), ("POP", .pop)]

/-- Instructions with one 8-bit immediate (30_encoding.md R110). -/
def immediateForms : List (String × (Byte → Instr)) :=
  [("ADDI", .addi), ("ADCI", .adci), ("SUBI", .subi), ("SBCI", .sbci), ("ANDI", .andi), ("XORI", .xori), ("ORI", .ori),
   ("CMPI", .cmpi)]

/-- Relative branches and their other names (30_encoding.md R110, R120). -/
def branchForms : List (String × (Byte → Instr)) :=
  [("BEQ", .beq), ("BNE", .bne), ("BCS", .bcs), ("BCC", .bcc), ("BMI", .bmi), ("BPL", .bpl), ("BVS", .bvs), ("BVC", .bvc),
   ("BRA", .bra), ("B", .bra), ("BZ", .beq), ("BNZ", .bne), ("BLO", .bcs), ("BHS", .bcc)]

/-- Jumps to a bare address (30_encoding.md R110). -/
def addressForms : List (String × (Addr → Instr)) := [("JMP", .jmp), ("CALL", .call)]

/-- JMP [P3] and CALL [P3] (30_encoding.md R120). -/
def pointerForms : List (String × Instr) := [("JMP", .jmpi), ("CALL", .calli)]

/-- The instruction a mnemonic and its operands stand for, destination first (30_encoding.md R118). -/
def instrForm (m : List Char) : List Operand → Option Form
  | [] => (lookupName plainForms m).map .whole
  | [.reg r] => (lookupName registerForms m).map (fun f => .whole (f r))
  | [.pair p] => (lookupName pairForms m).map (fun f => .whole (f p))
  | [.imm e] =>
    if upperWord m = "LDSP".toList then some (.word .ldsp e)
    else (lookupName immediateForms m).map (fun f => .byte f e)
  | [.value e] =>
    match lookupName branchForms m with
    | some f => some (.branch f e)
    | none => (lookupName addressForms m).map (fun f => .word f e)
  | [.pointer] => (lookupName pointerForms m).map .whole
  | [.reg d, .reg r] => if upperWord m = "MOV".toList then some (.whole (.mov d r)) else none
  | [.reg r, .imm e] => if upperWord m = "LDI".toList then some (.byte (.ldi r) e) else none
  | [.reg r, .abs e] => if upperWord m = "LD".toList then some (.word (.ld r) e) else none
  | [.reg r, .pointer] => if upperWord m = "LDX".toList then some (.whole (.ldx r)) else none
  | [.abs e, .reg r] => if upperWord m = "ST".toList then some (.word (.st r) e) else none
  | [.pointer, .reg r] => if upperWord m = "STX".toList then some (.whole (.stx r)) else none
  | [.pair p, .imm e] => if upperWord m = "LDW".toList then some (.word (.ldw p) e) else none
  | _ => none

/-! ## Lines -/

/-- What a line says after its label. -/
inductive Stmt where
  /-- Nothing. -/
  | empty
  /-- An instruction. -/
  | instr (f : Form)
  /-- `ORG expr` (30_encoding.md R119). -/
  | org (e : Expr)
  /-- `DB expr, ...` (30_encoding.md R119). -/
  | bytes (es : List Expr)
  /-- `DW expr, ...` (30_encoding.md R119). -/
  | words (es : List Expr)
  /-- `name EQU expr` (30_encoding.md R119). -/
  | equ (name : List Char) (e : Expr)

/-- The parts of a list of tokens between commas. -/
def splitCommas : List Token → List (List Token)
  | [] => [[]]
  | .comma :: rest => [] :: splitCommas rest
  | t :: rest =>
    match splitCommas rest with
    | [] => [[t]]
    | part :: parts => (t :: part) :: parts

/-- Each element through a function that may fail, in order. -/
def mapAll {α β : Type} (f : α → Except AsmError β) : List α → Except AsmError (List β)
  | [] => .ok []
  | x :: xs =>
    match f x, mapAll f xs with
    | .ok y, .ok ys => .ok (y :: ys)
    | .error e, _ => .error e
    | _, .error e => .error e

/-- The operands after a mnemonic. -/
def parseOperands : List Token → Except AsmError (List Operand)
  | [] => .ok []
  | ts => mapAll parseOperand (splitCommas ts)

/-- A mnemonic or directive with the tokens after it. DESIGN CHOICE: the directives' names are not case-sensitive, as the
mnemonics' are not (log 14). -/
def parseCommand (m : List Char) (ts : List Token) : Except AsmError Stmt :=
  if upperWord m = "ORG".toList then (parseExpr ts).map .org
  else if upperWord m = "DB".toList then (mapAll parseExpr (splitCommas ts)).map .bytes
  else if upperWord m = "DW".toList then (mapAll parseExpr (splitCommas ts)).map .words
  else
    match parseOperands ts with
    | .error e => .error e
    | .ok ops =>
      match instrForm m ops with
      | some f => .ok (.instr f)
      | none => .error .badLine

/-- What stands after the label of a line. DESIGN CHOICE: a line whose second word is EQU, in any case, is an EQU line; so a
symbol named EQU cannot be a first operand (log 14). -/
def parseStmt : List Token → Except AsmError Stmt
  | [] => .ok .empty
  | .word n :: .word k :: ts =>
    if upperWord k = "EQU".toList then (parseExpr ts).map (.equ n) else parseCommand n (.word k :: ts)
  | .word m :: ts => parseCommand m ts
  | _ => .error .badLine

/-- A line: `[label:] [mnemonic operands]` (30_encoding.md R118). -/
def parseLine : List Token → Except AsmError (Option (List Char) × Stmt)
  | .word l :: .colon :: ts => (parseStmt ts).map (fun s => (some l, s))
  | ts => (parseStmt ts).map (fun s => (none, s))

/-- The lines of a text. -/
def splitLines : List Char → List (List Char)
  | [] => [[]]
  | c :: cs =>
    if c == '\n' then [] :: splitLines cs
    else
      match splitLines cs with
      | [] => [[c]]
      | line :: lines => (c :: line) :: lines

/-- The lines of a text, read. -/
def parseText (text : List Char) : Except AsmError (List (Option (List Char) × Stmt)) :=
  mapAll (fun line =>
    match lexLine line [] with
    | .error e => .error e
    | .ok ts => parseLine ts) (splitLines text)

/-! ## The two passes -/

/-- The bytes a statement emits. -/
def Stmt.size : Stmt → Nat
  | .empty => 0
  | .instr f => f.length
  | .org _ => 0
  | .bytes es => es.length
  | .words es => 2 * es.length
  | .equ _ _ => 0

/-- A symbol defined; a second definition of one is refused (log 14). -/
def SymbolTable.define (env : SymbolTable) (w : List Char) (v : Int) : Except AsmError SymbolTable :=
  match env.value w with
  | none => .ok ((w, v) :: env)
  | some _ => .error (.duplicateSymbol w)

/-- The address an ORG sets; one outside the address space is refused (log 14). -/
def originOf (v : Int) : Except AsmError Nat :=
  if 0 ≤ v ∧ v < 65536 then .ok v.toNat else .error (.valueOutOfRange v)

/-- The symbols of a line's label, if it has one, at its address. -/
def defineLabel (env : SymbolTable) (label : Option (List Char)) (here : Nat) : Except AsmError SymbolTable :=
  match label with
  | some l => env.define l here
  | none => .ok env

/-- What a statement defines, and the address after it. ORG and EQU use what stands before them; DESIGN CHOICE: `$` in an ORG
is the location counter before it (log 14). DESIGN CHOICE: the
address after is not reduced modulo 2^16 (log 14). -/
def Stmt.place (env : SymbolTable) (here : Nat) : Stmt → Except AsmError (SymbolTable × Nat)
  | .org e =>
    match e.eval env here with
    | .ok v => (originOf v).map (fun a => (env, a))
    | .error e => .error e
  | .equ n e =>
    match e.eval env here with
    | .ok v => (env.define n v).map (fun env => (env, here))
    | .error e => .error e
  | .empty => .ok (env, here)
  | .instr f => .ok (env, here + f.length)
  | .bytes es => .ok (env, here + (Stmt.bytes es).size)
  | .words es => .ok (env, here + (Stmt.words es).size)

/-- The first pass: the value of every label and constant. DESIGN CHOICE: a label on an ORG line is the location counter before
the ORG, not the address it sets (log 14). DESIGN CHOICE: once the location counter passes 0xFFFF a label, and
`$`, is the counter itself, 65536 and up, while the bytes wrap to 0x0000 (cellsFrom); a 16-bit use of it is refused (log 14). -/
def collectSymbols : List (Option (List Char) × Stmt) → Nat → SymbolTable → Except AsmError SymbolTable
  | [], _, env => .ok env
  | (label, stmt) :: rest, here, env =>
    match defineLabel env label here with
    | .error e => .error e
    | .ok env =>
      match stmt.place env here with
      | .error e => .error e
      | .ok (env, next) => collectSymbols rest next env

/-- A value as a field of `bits` bits, unsigned or two's complement; another value is refused (log 14). -/
def fitField (bits : Nat) (v : Int) : Except AsmError (BitVec bits) :=
  if -(2 ^ (bits - 1) : Int) ≤ v ∧ v < (2 ^ bits : Int) then .ok (BitVec.ofInt bits v) else .error (.valueOutOfRange v)

/-- The offset of a branch at `here`: `rel8 = target - ($ + 2)`, refused outside -128 .. 127 (30_encoding.md R118). DESIGN
CHOICE: the difference is one of integers, not taken modulo 2^16 (00_scope.md R12, 30_encoding.md R105), so a branch across
0xFFFF and 0x0000 is refused: its bytes are written with DB (log 14). -/
def branchOffset (here : Nat) (target : Int) : Except AsmError Byte :=
  let offset := target - (here + 2)
  if -128 ≤ offset ∧ offset ≤ 127 then .ok (BitVec.ofInt 8 offset) else .error (.branchOutOfRange offset)

/-- The instruction of a form at an address. -/
def Form.assemble (env : SymbolTable) (here : Nat) : Form → Except AsmError Instr
  | .whole i => .ok i
  | .byte make e =>
    match e.eval env here with
    | .ok v => (fitField 8 v).map make
    | .error e => .error e
  | .word make e =>
    match e.eval env here with
    | .ok v => (fitField 16 v).map make
    | .error e => .error e
  | .branch make e =>
    match e.eval env here with
    | .ok v => (branchOffset here v).map make
    | .error e => .error e

/-- The value of an expression as a field. -/
def evalField (bits : Nat) (env : SymbolTable) (here : Nat) (e : Expr) : Except AsmError (BitVec bits) :=
  match e.eval env here with
  | .ok v => fitField bits v
  | .error e => .error e

/-- The bytes of a statement at an address. -/
def Stmt.emit (env : SymbolTable) (here : Nat) : Stmt → Except AsmError (List Byte)
  | .empty => .ok []
  | .instr f => (f.assemble env here).map encode
  | .org _ => .ok []
  | .bytes es => mapAll (evalField 8 env here) es
  | .words es => (mapAll (evalField 16 env here) es).map (fun ws => ws.flatMap bytes16)
  | .equ _ _ => .ok []

/-- Bytes at rising addresses; DESIGN CHOICE: modulo 2^16 (log 14). -/
def cellsFrom (here : Nat) : List Byte → List Host.Cell
  | [] => []
  | v :: rest => (here % 65536, v) :: cellsFrom (here + 1) rest

/-- The second pass: the bytes of every line at its address. DESIGN CHOICE: two lines may place bytes at one address, and the
later one's stand when the list is stored in order (log 14). -/
def emitLines (env : SymbolTable) : List (Option (List Char) × Stmt) → Nat → Except AsmError (List Host.Cell)
  | [], _ => .ok []
  | (_, .org e) :: rest, here =>
    match e.eval env here with
    | .ok v =>
      match originOf v with
      | .ok a => emitLines env rest a
      | .error e => .error e
    | .error e => .error e
  | (_, stmt) :: rest, here =>
    match stmt.emit env here, emitLines env rest (here + stmt.size) with
    | .ok vs, .ok cells => .ok (cellsFrom here vs ++ cells)
    | .error e, _ => .error e
    | _, .error e => .error e

/-- The bytes a source text places, from address 0 until an ORG (30_encoding.md R118 to R120). -/
def assemble (text : String) : Except AsmError (List Host.Cell) :=
  match parseText text.toList with
  | .error e => .error e
  | .ok lines =>
    match collectSymbols lines 0 [] with
    | .error e => .error e
    | .ok env => emitLines env lines 0

/-- A memory with bytes stored in order. -/
def Memory.storeAll (m : Memory) : List Host.Cell → Memory
  | [] => m
  | (a, v) :: rest => (m.store a v).storeAll rest

end Sys2Proof.Machine
end

