-- ==== Sys2Proof/Tests/Slice0.lean ====
section
/-! SUPPORT. Tests: what WellFormed refuses, every constructor's decoding from a word written out by hand, one step of each
instruction (expected values: the vectors of 95_test_vectors.md, whose ids the names carry), the image and reset vectors,
and a witness for the hypotheses of every obligation that has some. -/

namespace Sys2Proof.Tests

open Sys2Proof Sys2Proof.Machine

/-! ## Helpers -/

/-- The defaults of 95_test_vectors.md on the reference bus: the given first registers (the rest 0), F, PC, the code bytes
at PC, SP = 0xE000, and every other field as after reset. -/
def start (regs : List Byte) (f : Byte) (pc : Addr) (code : List Byte) : State :=
  { State.reset with
    cpu := { Cpu.resetTo ref8Tag with
      regs := Vector.ofFn (fun i => regs.getD i.val 0x00), f := f, pc := pc, sp := 0xE000 },
    bus := Bus.reference.placeBytes pc code }

/-- A state with one memory byte preset. -/
def holding (a : Addr) (v : Byte) (s : State) : State := { s with bus := s.bus.place a v }

/-- What a test looks at after one step: a register, F, PC, the cycles. -/
def afterReg (r : RegIdx) (s : State) : List Nat :=
  match step s with
  | .next t => [(t.reg r).toNat, t.cpu.f.toNat, t.cpu.pc.toNat, t.obs.cycles]
  | _ => []

/-- The bytes written by a step, each after its address, in issue order. -/
def written : List BusEvent → List Nat
  | [] => []
  | .read _ _ :: rest => written rest
  | .write a v :: rest => a.toNat :: v.toNat :: written rest

/-- What a test looks at after one step: SP, F, PC, the cycles, the writes. -/
def afterStack (s : State) : List Nat :=
  match step s with
  | .next t => [t.cpu.sp.toNat, t.cpu.f.toNat, t.cpu.pc.toNat, t.obs.cycles] ++ written t.obs.trace
  | _ => []

/-- What a test looks at after one step: PC, IE, IES, HALTED, the cycles. -/
def afterControl (s : State) : List Nat :=
  match step s with
  | .next t => [t.cpu.pc.toNat, t.cpu.ie.toNat, t.cpu.ies.toNat, t.cpu.halted.toNat, t.obs.cycles]
  | _ => []

/-! ## WellFormed refuses a row 0xFC to 0xFF that carries another opcode byte (30_encoding.md R110) -/

theorem test_refuses_illegalFC_00 : (Instr.illegalFC 0x00).wellFormed = false := by decide
theorem test_refuses_illegalFC_FB : (Instr.illegalFC 0xFB).wellFormed = false := by decide
theorem test_refuses_illegalFC_7F : (Instr.illegalFC 0x7F).wellFormed = false := by decide
theorem test_accepts_illegalFC : (Instr.illegalFC 0xFC).wellFormed = true ∧ (Instr.illegalFC 0xFF).wellFormed = true := by
  decide

/-! ## Decoding: words written out bit by bit from 30_encoding.md R101, R106, R110 -/

theorem test_decode_misc :
    decodeTableWord 8 0b00000000 = some .nop ∧ decodeTableWord 8 0b00000001 = some .halt ∧
    decodeTableWord 8 0b00000010 = some .di ∧ decodeTableWord 8 0b00000011 = some .ei ∧
    decodeTableWord 8 0b00000100 = some .swi ∧ decodeTableWord 8 0b00000101 = some .clc ∧
    decodeTableWord 8 0b00000110 = some .sec ∧ decodeTableWord 8 0b00000111 = some .cmc := by decide

theorem test_decode_loads_stores :
    decodeTableWord 16 0b10100101_00001_101 = some (.ldi 5 0xA5) ∧
    decodeTableWord 24 0b00010010_00110100_00010_011 = some (.ld 3 0x1234) ∧
    decodeTableWord 24 0b11111111_11111110_00011_101 = some (.st 5 0xFFFE) ∧
    decodeTableWord 8 0b00100_110 = some (.ldx 6) ∧ decodeTableWord 8 0b00101_111 = some (.stx 7) ∧
    decodeTableWord 24 0b10101011_11001101_001100_10 = some (.ldw 2 0xABCD) := by decide

theorem test_decode_pairs_pointer :
    decodeTableWord 8 0b001101_01 = some (.incw 1) ∧ decodeTableWord 8 0b001110_11 = some (.decw 3) ∧
    decodeTableWord 24 0b11100000_00000001_00111100 = some (.ldsp 0xE001) ∧
    decodeTableWord 8 0b00111101 = some .movsp ∧ decodeTableWord 8 0b00111110 = some .getsp ∧
    decodeTableWord 8 0b00111111 = some .illegal3F := by decide

theorem test_decode_mov :
    decodeTableWord 8 0b01_001_010 = some (.mov 1 2) ∧ decodeTableWord 8 0b01_111_000 = some (.mov 7 0) := by decide

theorem test_decode_alu_register :
    decodeTableWord 8 0b10_000_001 = some (.add 1) ∧ decodeTableWord 8 0b10_001_010 = some (.adc 2) ∧
    decodeTableWord 8 0b10_010_011 = some (.sub 3) ∧ decodeTableWord 8 0b10_011_100 = some (.sbc 4) ∧
    decodeTableWord 8 0b10_100_101 = some (.and 5) ∧ decodeTableWord 8 0b10_101_110 = some (.xor 6) ∧
    decodeTableWord 8 0b10_110_111 = some (.or 7) ∧ decodeTableWord 8 0b10_111_000 = some (.cmp 0) := by decide

theorem test_decode_alu_immediate :
    decodeTableWord 16 0b00000001_11000_000 = some (.addi 0x01) ∧
    decodeTableWord 16 0b00000010_11000_001 = some (.adci 0x02) ∧
    decodeTableWord 16 0b00000100_11000_010 = some (.subi 0x04) ∧
    decodeTableWord 16 0b00001000_11000_011 = some (.sbci 0x08) ∧
    decodeTableWord 16 0b00010000_11000_100 = some (.andi 0x10) ∧
    decodeTableWord 16 0b00100000_11000_101 = some (.xori 0x20) ∧
    decodeTableWord 16 0b01000000_11000_110 = some (.ori 0x40) ∧
    decodeTableWord 16 0b10000000_11000_111 = some (.cmpi 0x80) := by decide

theorem test_decode_branches :
    decodeTableWord 16 0b11111110_11001_000 = some (.beq 0xFE) ∧
    decodeTableWord 16 0b00000001_11001_001 = some (.bne 0x01) ∧
    decodeTableWord 16 0b00000010_11001_010 = some (.bcs 0x02) ∧
    decodeTableWord 16 0b00000011_11001_011 = some (.bcc 0x03) ∧
    decodeTableWord 16 0b00000100_11001_100 = some (.bmi 0x04) ∧
    decodeTableWord 16 0b00000101_11001_101 = some (.bpl 0x05) ∧
    decodeTableWord 16 0b00000110_11001_110 = some (.bvs 0x06) ∧
    decodeTableWord 16 0b00000111_11001_111 = some (.bvc 0x07) := by decide

theorem test_decode_accumulator :
    decodeTableWord 8 0b11010_001 = some (.inc 1) ∧ decodeTableWord 8 0b11011_010 = some (.dec 2) ∧
    decodeTableWord 8 0b11100_000 = some .shl ∧ decodeTableWord 8 0b11100_001 = some .shr ∧
    decodeTableWord 8 0b11100_010 = some .sar ∧ decodeTableWord 8 0b11100_011 = some .rcl ∧
    decodeTableWord 8 0b11100_100 = some .rcr ∧ decodeTableWord 8 0b11100_101 = some .not ∧
    decodeTableWord 8 0b11100_110 = some .neg ∧ decodeTableWord 8 0b11100_111 = some .swap := by decide

theorem test_decode_stack_control :
    decodeTableWord 8 0b111010_11 = some (.push 3) ∧ decodeTableWord 8 0b111011_00 = some (.pop 0) ∧
    decodeTableWord 24 0b00010010_00110100_11110000 = some (.jmp 0x1234) ∧
    decodeTableWord 24 0b10000000_00000001_11110001 = some (.call 0x8001) ∧
    decodeTableWord 8 0b11110010 = some .ret ∧ decodeTableWord 8 0b11110011 = some .reti ∧
    decodeTableWord 16 0b10000000_11110100 = some (.bra 0x80) ∧ decodeTableWord 8 0b11110101 = some .jmpi ∧
    decodeTableWord 8 0b11110110 = some .calli ∧ decodeTableWord 8 0b11110111 = some .pushf ∧
    decodeTableWord 8 0b11111000 = some .popf := by decide

theorem test_decode_arithmetic_reserved :
    decodeTableWord 8 0b11111001 = some .mul ∧ decodeTableWord 8 0b11111010 = some .div ∧
    decodeTableWord 8 0b11111011 = some .illegalFB ∧ decodeTableWord 8 0b111111_00 = some (.illegalFC 0xFC) ∧
    decodeTableWord 8 0b111111_11 = some (.illegalFC 0xFF) := by decide

/-- A list that ends inside an instruction is refused by name. -/
theorem test_decode_truncated :
    decode [] = .error .noBytes ∧ decode [0x08] = .error (.truncated 0x08) ∧
    decode [0x3C, 0x00] = .error (.truncated 0x3C) := by decide

/-! ## One step of every instruction: vectors T1 to T12 of 95_test_vectors.md -/

theorem test_nop_T10_1 : afterControl (start [] 0x00 0x0100 [0x00]) = [0x0101, 0, 0, 0, 1] := by decide
theorem test_halt_T10_2 : afterControl (start [] 0x00 0x0100 [0x01]) = [0x0101, 0, 0, 1, 1] := by decide
theorem test_di_T10_3 : afterControl ((start [] 0x00 0x0100 [0x02]).setIE true) = [0x0101, 0, 0, 0, 1] := by decide
theorem test_ei_T10_4 : afterControl (start [] 0x00 0x0100 [0x03]) = [0x0101, 1, 1, 0, 1] := by decide
theorem test_swi_T10_5 :
    afterStack ((start [] 0x05 0x0100 [0x04]).setIE true) =
      [0xDFFD, 0x05, 0x0010, 5, 0xDFFF, 0x01, 0xDFFE, 0x01, 0xDFFD, 0x05] := by decide
theorem test_swi_control_T10_5 :
    afterControl ((start [] 0x05 0x0100 [0x04]).setIE true) =
      [0x0010, 0, 0, 0, 5] := by decide
theorem test_clc_T5_5 : afterReg 0 (start [] 0x0F 0x0100 [0x05]) = [0x00, 0x0E, 0x0101, 1] := by decide
theorem test_sec_T5_6 : afterReg 0 (start [] 0x00 0x0100 [0x06]) = [0x00, 0x01, 0x0101, 1] := by decide
theorem test_cmc_T5_7 : afterReg 0 (start [] 0x0E 0x0100 [0x07]) = [0x00, 0x0F, 0x0101, 1] := by decide
theorem test_ldi_T6_1 : afterReg 0 (start [] 0x0F 0x0100 [0x08, 0xA5]) = [0xA5, 0x0F, 0x0102, 2] := by decide
theorem test_ld_T6_3 :
    afterReg 3 (holding 0x1234 0x99 (start [] 0x00 0x0100 [0x13, 0x34, 0x12])) =
      [0x99, 0x00, 0x0103, 4] := by decide
theorem test_st_T6_4 :
    afterStack (start [0x00, 0x00, 0x00, 0x00, 0x00, 0x42] 0x00 0x0100 [0x1D, 0xFF, 0xFF]) =
      [0xE000, 0x00, 0x0103, 4, 0xFFFF, 0x42] := by decide
theorem test_ldx_T6_5 :
    afterReg 6 (holding 0x2000 0x7E (start [0x00, 0x00, 0x00, 0x00, 0x00, 0x00, 0x00, 0x20] 0x00 0x0100 [0x26])) =
      [0x7E, 0x00, 0x0101, 2] := by decide
theorem test_stx_T6_8 :
    afterStack (start [0x00, 0x00, 0x00, 0x00, 0x00, 0x00, 0x01, 0x30] 0x00 0x0100 [0x2F]) =
      [0xE000, 0x00, 0x0101, 2, 0x3001, 0x30] := by decide
theorem test_ldw_T6_9 : afterReg 5 (start [] 0x00 0x0100 [0x32, 0xCD, 0xAB]) = [0xAB, 0x00, 0x0103, 3] := by decide
theorem test_incw_T5_1 : afterReg 1 (start [0xFF, 0xFF] 0x09 0x0100 [0x34]) = [0x00, 0x0D, 0x0101, 2] := by decide
theorem test_decw_T5_3 : afterReg 5 (start [] 0x04 0x0100 [0x3A]) = [0xFF, 0x00, 0x0101, 2] := by decide
theorem test_ldsp_T7_7 : afterStack (start [] 0x00 0x0100 [0x3C, 0x00, 0x00]) = [0x0000, 0x00, 0x0103, 3] := by decide
theorem test_movsp_T7_8 :
    afterStack (start [0x00, 0x00, 0x00, 0x00, 0x00, 0x00, 0x00, 0xC0] 0x00 0x0100 [0x3D]) =
      [0xC000, 0x00, 0x0101, 2] := by decide
theorem test_getsp_T7_9 :
    afterReg 7 ((start [] 0x00 0x0100 [0x3E]).setSP 0xDFF0) =
      [0xDF, 0x00, 0x0101, 2] := by decide
theorem test_illegal3F_T10_8 : afterReg 0 (start [] 0x0F 0x0100 [0x3F]) = [0x00, 0x0F, 0x0101, 2] := by decide
theorem test_mov_T6_10 :
    afterReg 1 (start [0x00, 0x22, 0x11] 0x0F 0x0100 [0x4A]) =
      [0x11, 0x0F, 0x0101, 1] := by decide
theorem test_add_T1_4 : afterReg 0 (start [0x80, 0x80] 0x00 0x0100 [0x81]) = [0x00, 0x07, 0x0101, 1] := by decide
theorem test_adc_T1_8 : afterReg 0 (start [0x80] 0x01 0x0100 [0x88]) = [0x01, 0x03, 0x0101, 1] := by decide
theorem test_sub_T1_9 : afterReg 0 (start [0x00, 0x01] 0x00 0x0100 [0x91]) = [0xFF, 0x09, 0x0101, 1] := by decide
theorem test_sbc_T1_15 : afterReg 0 (start [0x33] 0x01 0x0100 [0x98]) = [0xFF, 0x09, 0x0101, 1] := by decide
theorem test_and_T2_1 : afterReg 0 (start [0xF0, 0x0F] 0x03 0x0100 [0xA1]) = [0x00, 0x04, 0x0101, 1] := by decide
theorem test_xor_T2_3 : afterReg 0 (start [0xAA, 0x55] 0x00 0x0100 [0xA9]) = [0xFF, 0x08, 0x0101, 1] := by decide
theorem test_or_T2_5 : afterReg 0 (start [] 0x01 0x0100 [0xB1]) = [0x00, 0x04, 0x0101, 1] := by decide
theorem test_cmp_T1_18 : afterReg 0 (start [0x80, 0x7F] 0x00 0x0100 [0xB9]) = [0x80, 0x02, 0x0101, 1] := by decide
theorem test_addi_T1_20 : afterReg 0 (start [0x01] 0x00 0x0100 [0xC0, 0xFF]) = [0x00, 0x05, 0x0102, 2] := by decide
theorem test_adci_T1_21 : afterReg 0 (start [0xFF] 0x01 0x0100 [0xC1, 0x00]) = [0x00, 0x05, 0x0102, 2] := by decide
theorem test_subi_T1_22 : afterReg 0 (start [] 0x00 0x0100 [0xC2, 0x80]) = [0x80, 0x0B, 0x0102, 2] := by decide
theorem test_sbci_T1_23 : afterReg 0 (start [] 0x01 0x0100 [0xC3, 0x00]) = [0xFF, 0x09, 0x0102, 2] := by decide
theorem test_andi_T2_7 : afterReg 0 (start [0xFF] 0x03 0x0100 [0xC4, 0x00]) = [0x00, 0x04, 0x0102, 2] := by decide
theorem test_xori_T2_8 : afterReg 0 (start [0x80] 0x00 0x0100 [0xC5, 0x80]) = [0x00, 0x04, 0x0102, 2] := by decide
theorem test_ori_T2_9 : afterReg 0 (start [0x80] 0x00 0x0100 [0xC6, 0x01]) = [0x81, 0x08, 0x0102, 2] := by decide
theorem test_cmpi_T1_25 : afterReg 0 (start [0xFE] 0x00 0x0100 [0xC7, 0xFF]) = [0xFE, 0x09, 0x0102, 2] := by decide
theorem test_beq_taken_T8_17 : afterReg 0 (start [] 0x04 0x0100 [0xC8, 0x80]) = [0x00, 0x04, 0x0082, 3] := by decide
theorem test_beq_not_taken_T8_2 :
    afterReg 0 (start [] 0x00 0x0100 [0xC8, 0x10]) =
      [0x00, 0x00, 0x0102, 2] := by decide
theorem test_bne_T8_3 : afterReg 0 (start [] 0x00 0x0100 [0xC9, 0x10]) = [0x00, 0x00, 0x0112, 3] := by decide
theorem test_bcs_T8_5 : afterReg 0 (start [] 0x01 0x0100 [0xCA, 0x10]) = [0x00, 0x01, 0x0112, 3] := by decide
theorem test_bcc_T8_7 : afterReg 0 (start [] 0x00 0x0100 [0xCB, 0x10]) = [0x00, 0x00, 0x0112, 3] := by decide
theorem test_bmi_T8_9 : afterReg 0 (start [] 0x08 0x0100 [0xCC, 0x10]) = [0x00, 0x08, 0x0112, 3] := by decide
theorem test_bpl_T8_11 : afterReg 0 (start [] 0x00 0x0100 [0xCD, 0x10]) = [0x00, 0x00, 0x0112, 3] := by decide
theorem test_bvs_T8_13 : afterReg 0 (start [] 0x02 0x0100 [0xCE, 0x10]) = [0x00, 0x02, 0x0112, 3] := by decide
theorem test_bvc_not_taken_T8_16 :
    afterReg 0 (start [] 0x02 0x0100 [0xCF, 0x10]) =
      [0x00, 0x02, 0x0102, 2] := by decide
theorem test_inc_T3_1 : afterReg 0 (start [0x7F] 0x01 0x0100 [0xD0]) = [0x80, 0x0B, 0x0101, 1] := by decide
theorem test_dec_T3_4 : afterReg 0 (start [0x80] 0x01 0x0100 [0xD8]) = [0x7F, 0x03, 0x0101, 1] := by decide
theorem test_shl_T3_8 : afterReg 0 (start [0x40] 0x02 0x0100 [0xE0]) = [0x80, 0x08, 0x0101, 1] := by decide
theorem test_shr_T3_9 : afterReg 0 (start [0x81] 0x00 0x0100 [0xE1]) = [0x40, 0x01, 0x0101, 1] := by decide
theorem test_sar_T3_10 : afterReg 0 (start [0xFF] 0x00 0x0100 [0xE2]) = [0xFF, 0x09, 0x0101, 1] := by decide
theorem test_rcl_T3_12 : afterReg 0 (start [0x7F] 0x01 0x0100 [0xE3]) = [0xFF, 0x08, 0x0101, 1] := by decide
theorem test_rcr_T3_14 : afterReg 0 (start [] 0x01 0x0100 [0xE4]) = [0x80, 0x08, 0x0101, 1] := by decide
theorem test_not_T3_16 : afterReg 0 (start [] 0x01 0x0100 [0xE5]) = [0xFF, 0x09, 0x0101, 1] := by decide
theorem test_neg_T3_19 : afterReg 0 (start [0x80] 0x00 0x0100 [0xE6]) = [0x80, 0x0B, 0x0101, 1] := by decide
theorem test_swap_T3_22 : afterReg 0 (start [0x0F] 0x00 0x0100 [0xE7]) = [0xF0, 0x08, 0x0101, 1] := by decide
theorem test_push_wraps_T7_3 :
    afterStack ((start [0x34, 0x12] 0x00 0x0100 [0xE8]).setSP 0x0001) =
      [0xFFFF, 0x00, 0x0101, 3, 0x0000, 0x12, 0xFFFF, 0x34] := by decide
theorem test_pop_wraps_T7_4 :
    afterReg 1 ((holding 0x0000 0x56 (holding 0xFFFF 0x78 (start [] 0x00 0x0100 [0xEC]))).setSP 0xFFFF) =
      [0x56, 0x00, 0x0101, 3] := by decide
theorem test_jmp_T9_1 : afterReg 0 (start [] 0x00 0x0100 [0xF0, 0x34, 0x12]) = [0x00, 0x00, 0x1234, 4] := by decide
theorem test_call_wraps_T9_6 :
    afterStack ((start [] 0x00 0x0100 [0xF1, 0x00, 0x20]).setSP 0x0001) =
      [0xFFFF, 0x00, 0x2000, 6, 0x0000, 0x01, 0xFFFF, 0x03] := by decide
theorem test_ret_T9_5 :
    afterStack ((holding 0xDFFF 0x01 (holding 0xDFFE 0x03 (start [] 0x00 0x0100 [0xF2]))).setSP 0xDFFE) =
      [0xE000, 0x00, 0x0103, 4] := by decide
theorem test_reti_T10_7 :
    afterStack ((holding 0xDFFF 0x12 (holding 0xDFFE 0x34 (holding 0xDFFD 0xF9 (start [] 0x00 0x0100 [0xF3])))).setSP 0xDFFD) =
      [0xE000, 0x09, 0x1234, 5] := by decide
theorem test_reti_control_T10_7 :
    afterControl ((holding 0xDFFF 0x12 (holding 0xDFFE 0x34 (holding 0xDFFD 0xF9 (start [] 0x00 0x0100 [0xF3])))).setSP 0xDFFD) =
      [0x1234, 1, 0, 0, 5] := by decide
theorem test_bra_wraps_T8_22 : afterReg 0 (start [] 0x00 0x0010 [0xF4, 0x80]) = [0x00, 0x00, 0xFF92, 3] := by decide
theorem test_jmpi_T9_2 :
    afterReg 0 (start [0x00, 0x00, 0x00, 0x00, 0x00, 0x00, 0x00, 0x40] 0x00 0x0100 [0xF5]) =
      [0x00, 0x00, 0x4000, 2] := by decide
theorem test_calli_T9_4 :
    afterStack (start [0x00, 0x00, 0x00, 0x00, 0x00, 0x00, 0x00, 0x40] 0x00 0x0100 [0xF6]) =
      [0xDFFE, 0x00, 0x4000, 4, 0xDFFF, 0x01, 0xDFFE, 0x01] := by decide
theorem test_pushf_T7_5 :
    afterStack (start [] 0x0A 0x0100 [0xF7]) =
      [0xDFFF, 0x0A, 0x0101, 2, 0xDFFF, 0x0A] := by decide
theorem test_popf_T7_6 :
    afterStack (holding 0xE000 0xFF (start [] 0x00 0x0100 [0xF8])) =
      [0xE001, 0x0F, 0x0101, 2] := by decide
theorem test_mul_T4_6 : afterReg 1 (start [0xFF, 0x80] 0x00 0x0100 [0xF9]) = [0x7F, 0x01, 0x0101, 8] := by decide
theorem test_div_T4_12 : afterReg 1 (start [0xFF, 0x02] 0x00 0x0100 [0xFA]) = [0x01, 0x00, 0x0101, 16] := by decide
theorem test_div_by_zero_T4_15 : afterReg 1 (start [0x7B] 0x00 0x0100 [0xFA]) = [0x7B, 0x0A, 0x0101, 16] := by decide
theorem test_illegalFB_T10_9 : afterReg 0 (start [] 0x00 0x0100 [0xFB]) = [0x00, 0x00, 0x0101, 2] := by decide
theorem test_illegalFC_T10_10 :
    afterControl (((start [] 0x00 0x0100 [0xFF]).setIE true).setIES true) =
      [0x0101, 1, 0, 0, 2] := by decide
theorem test_acknowledge_wraps_T11_11 :
    afterStack ((((start [] 0x0C 0x1234 [0x00]).setSP 0x0001).setIE true).setIRQ true) =
      [0xFFFE, 0x0C, 0x0008, 6, 0x0000, 0x12, 0xFFFF, 0x34, 0xFFFE, 0x0C] := by decide
theorem test_acknowledge_halted_T11_4 :
    afterControl ((((start [] 0x00 0x0100 [0x00]).setIE true).setHalted true).setIRQ true) =
      [0x0008, 0, 0, 0, 6] := by decide
theorem test_wake_T11_5 :
    afterControl (((start [] 0x00 0x0100 [0x00]).setHalted true).setIRQ true) =
      [0x0100, 0, 0, 0, 1] := by decide
theorem test_idle_T11_6 :
    afterControl (((start [] 0x00 0x0100 [0x00]).setIE true).setHalted true) =
      [0x0100, 1, 0, 1, 1] := by decide
theorem test_shadow_masks_T11_3 :
    afterControl ((((start [] 0x00 0x0100 [0x00]).setIE true).setIES true).setIRQ true) =
      [0x0101, 1, 0, 0, 1] := by decide
theorem test_fetch_wraps_T12_1 :
    afterReg 1 (start [] 0x00 0xFFFE [0x30, 0x34, 0x12]) =
      [0x12, 0x00, 0x0001, 3] := by decide

/-- A wide access wraps modulo 2^16 and is little-endian (20_memory.md R77; 95_test_vectors.md T7.4 reads as this). -/
theorem test_memRead16_wraps :
    (State.memRead16 (holding 0xFFFF 0x78 (holding 0x0000 0x56 (start [] 0x00 0x0100 []))) 0xFFFF).1 = 0x5678 := by decide

/-! ## The image, reset and the assembler -/

/-- The CPU of V13.2. -/
def imageState : Cpu :=
  { regs := Vector.ofFn (fun i => BitVec.ofNat 8 (i.val + 1)), f := 0x0F, sp := 0x1234, pc := 0xABCD, ie := true, ies := true,
    halted := false, irq := true, cyc := 0x0102030405060708, variant := ref8Tag }

/-- The image of V13.2. -/
def imageBytes : List Byte :=
  [0x01, 0x01, 0x01, 0x02, 0x03, 0x04, 0x05, 0x06, 0x07, 0x08, 0x0F, 0x34, 0x12, 0xCD, 0xAB, 0x0B, 0x08, 0x07, 0x06, 0x05,
   0x04, 0x03, 0x02, 0x01]

-- The checks of 10_state.md R64 in their order: they also witness the clauses of O55.
theorem test_serialize_V13_2 : imageState.serialize = imageBytes := by decide
theorem test_deserialize_V13_2 : Cpu.deserialize imageBytes = .ok imageState := by decide
theorem test_deserialize_V13_3 : Cpu.deserialize imageBytes.dropLast = .error .corruptData := by decide
theorem test_deserialize_V13_4 : Cpu.deserialize (imageBytes ++ [0x00]) = .error .corruptData := by decide
theorem test_deserialize_V13_5 : Cpu.deserialize (imageBytes.set 0 0x02) = .error .corruptData := by decide
theorem test_deserialize_V13_7 : Cpu.deserialize (imageBytes.set 1 0x02) = .error .versionMismatch := by decide
theorem test_deserialize_V13_8 : Cpu.deserialize (imageBytes.set 1 0x00) = .error .corruptData := by decide
theorem test_deserialize_V13_9 : Cpu.deserialize (imageBytes.set 10 0x1F) = .error .corruptData := by decide
theorem test_deserialize_V13_10 : Cpu.deserialize (imageBytes.set 15 0x1B) = .error .corruptData := by decide
theorem test_deserialize_V13_11 :
    Cpu.deserialize ((imageBytes.set 0 0x02).set 1 0x02) = .error .corruptData := by decide
theorem test_deserialize_V13_12 :
    Cpu.deserialize ((imageBytes.set 1 0x02).set 10 0x1F) = .error .versionMismatch := by decide

/-- V14.2: SWI at 0x0000 right after reset, the stack wrapping below 0x0000. -/
theorem test_swi_after_reset_V14_2 :
    afterStack (holding 0x0000 0x04 State.reset) =
      [0xFFFD, 0x00, 0x0010, 5, 0xFFFF, 0x00, 0xFFFE, 0x01, 0xFFFD, 0x00] := by decide

/-- V14.3: with IE = 0 after reset the NOP executes. -/
theorem test_no_acknowledge_after_reset_V14_3 : afterControl (State.reset.setIRQ true) = [0x0001, 0, 0, 0, 1] := by decide

/-- interrupt, serialize, deserialize and reset with REF8 selected (V13.2; 60_exceptions.md R284). -/
theorem test_host_operations :
    let s := { State.reset with cpu := imageState }
    (match s.interrupt false with | .next t => some t.cpu.irq | _ => none) = some false ∧
    (match s.serialize with | .ok b => some b | .error _ => none) = some imageBytes ∧
    (match State.reset.deserialize imageBytes with | .ok (.ok t) => some t.cpu | _ => none) = some imageState ∧
    s.hostReset = .next State.reset := ⟨by decide, by decide, by decide, rfl⟩

/-- With tag 0x00 each is refused, but for reset, which has no effect (60_exceptions.md R308; 70_reset_and_hazards.md R322);
with a console variant's tag each is refused (log 7). -/
theorem test_host_operations_no_ref8 :
    let none := { State.reset with cpu := { imageState with variant := 0x00 } }
    let console := { State.reset with cpu := { imageState with variant := 0x02 } }
    none.interrupt true = .refused .preLoadIdle ∧ none.serialize = .error .preLoadIdle ∧
    (match none.deserialize imageBytes with | .error r => some r | .ok _ => Option.none) = some .preLoadIdle ∧
    none.hostReset = .next none ∧
    console.interrupt true = .refused (.consoleVariant 0x02) ∧ console.serialize = .error (.consoleVariant 0x02) ∧
    (match console.deserialize imageBytes with | .error r => some r | .ok _ => Option.none) = some (.consoleVariant 0x02) ∧
    console.hostReset = .refused (.consoleVariant 0x02) := ⟨rfl, rfl, rfl, rfl, rfl, rfl, rfl, rfl⟩

set_option maxRecDepth 20000 in
/-- The choices of log 14 on addresses: a branch across 0xFFFF is refused, and so is a 16-bit use of a label past it. -/
theorem test_assemble_top :
    assemble "ORG 0x0010\nBRA 0xFF92" = .error (.branchOutOfRange 65408) ∧
    assemble "ORG 0xFFFF\nNOP\nend: JMP end" = .error (.valueOutOfRange 65536) := by decide

set_option maxRecDepth 20000 in
/-- More choices of log 14: no leading `+`, a label on an ORG line, directives in any case, one address placed twice. -/
theorem test_assemble_directives :
    assemble "DB +1" = .error .badLine ∧ assemble "here: org 2\ndb here" = .ok [(2, 0x00)] ∧
    assemble "DB 1\nORG 0\nDB 2" = .ok [(0, 0x01), (0, 0x02)] := by decide

set_option maxRecDepth 20000 in
/-- Lines of P1 and a word constant, as 95_test_vectors.md lists their bytes. -/
theorem test_assemble :
    (match assemble "ORG 0x0008\nCLRA\nloop: LDX R1, [P3]\nBNE loop\nDW 0x0050" with
      | .ok cells => cells.map (fun c => (c.1, c.2.toNat))
      | .error _ => []) =
      [(8, 0xA8), (9, 0x21), (10, 0xC9), (11, 0xFD), (12, 0x50), (13, 0x00)] := by decide

/-! ## A bus with every kind of region: 0x4000 to 0x7FFF ROM, 0x8000 to 0x8FFF MMIO, 0xF000 to 0xFFFF unmapped, the rest
RAM -/

/-- The reference bus with three regions registered over it (20_memory.md R76). -/
def mixedBus : Bus :=
  ((Bus.reference.register { first := 0x4000, last := 0x7FFF, kind := .rom }).register
    { first := 0x8000, last := 0x8FFF, kind := .mmio }).register { first := 0xF000, last := 0xFFFF, kind := .unmapped }

/-- A state on the mixed bus with P3 at an address. -/
def onMixedBus (p3 : Addr) : State :=
  { start [0x5A] 0x00 0x0100 [] with bus := mixedBus }.setPair 3 p3

theorem test_mixed_bus_edges :
    [0x3FFF, 0x4000, 0x7FFF, 0x8000, 0x8FFF, 0x9000, 0xEFFF, 0xF000, 0xFFFF].map mixedBus.kindAt =
      [.ram, .rom, .rom, .mmio, .mmio, .ram, .ram, .unmapped, .unmapped] := by decide

/-! ## Witnesses: states and operands that meet the hypotheses of the obligations -/

/-- O1: every well-formed term but the reserved row is so for every operand; the reserved row at both ends. -/
theorem witness_DecodeOfEncode :
    (Instr.jmp 0xFFFF).wellFormed = true ∧ (Instr.illegalFC 0xFC).wellFormed = true ∧
    (Instr.illegalFC 0xFF).wellFormed = true := by decide

/-- O2: lists that are read, one of each length, and lists just long enough. -/
theorem witness_EncodeOfDecode :
    decode [0x00, 0x07] = .ok (.nop, [0x07]) ∧ decode [0x08, 0xA5, 0x07] = .ok (.ldi 0 0xA5, [0x07]) ∧
    decode [0xF0, 0x34, 0x12] = .ok (.jmp 0x1234, []) ∧
    instrLen 0x00 = ([] : List Byte).length + 1 ∧ instrLen 0x08 = [0xA5].length + 1 ∧ instrLen 0xF0 = [0x34, 0x12].length + 1 := by decide

/-- O3: a row of the map that holds an opcode byte, first and last. -/
theorem witness_OpcodeMapPartition :
    (opcodeMap[0]?.map (fun row => row.has 0x00)) = some true ∧ (opcodeMap[69]?.map (fun row => row.has 0xFF)) = some true := by
  decide

/-- O18: a load in RAM and one in ROM, at the ends of the ROM region. -/
theorem witness_LoadResults :
    mixedBus.kindAt (word16 0x3F 0xFF) = .ram ∧ mixedBus.kindAt (word16 0x40 0x00) = .rom ∧
    (onMixedBus 0x7FFF).bus.kindAt (word16 ((onMixedBus 0x7FFF).reg 7) ((onMixedBus 0x7FFF).reg 6)) = .rom ∧
    (onMixedBus 0x9000).bus.kindAt (word16 ((onMixedBus 0x9000).reg 7) ((onMixedBus 0x9000).reg 6)) = .ram := by decide

/-- O19: a store in RAM, in ROM and on an unmapped address. -/
theorem witness_StoreResults :
    mixedBus.mem.wf ∧ mixedBus.kindAt (word16 0x90 0x00) = .ram ∧ mixedBus.kindAt (word16 0x7F 0xFF) = .rom ∧
    mixedBus.kindAt (word16 0xF0 0x00) = .unmapped ∧
    (onMixedBus 0xEFFF).bus.kindAt (word16 ((onMixedBus 0xEFFF).reg 7) ((onMixedBus 0xEFFF).reg 6)) = .ram ∧
    (onMixedBus 0x4000).bus.kindAt (word16 ((onMixedBus 0x4000).reg 7) ((onMixedBus 0x4000).reg 6)) = .rom ∧
    (onMixedBus 0xFFFF).bus.kindAt (word16 ((onMixedBus 0xFFFF).reg 7) ((onMixedBus 0xFFFF).reg 6)) = .unmapped := by decide

/-- O20, O26, O29, O32: a stack in RAM that wraps: SP = 0x0001, its frame at 0x0000, 0xFFFF and 0xFFFE. -/
theorem witness_stack_in_ram :
    let s := (start [] 0x0F 0x0100 []).setSP 0x0001
    s.bus.mem.wf ∧ s.bus.kindAt (s.cpu.sp - 1) = .ram ∧ s.bus.kindAt (s.cpu.sp - 2) = .ram ∧
    s.bus.kindAt (s.cpu.sp - 3) = .ram ∧ ∀ k : Addr, k = 1 ∨ k = 2 ∨ k = 3 → s.bus.kindAt (s.cpu.sp - k) = .ram := by
  refine ⟨by decide, by decide, by decide, by decide, ?_⟩
  rintro k (rfl | rfl | rfl) <;> decide

/-- O26: CALL and CALLI complete from it, and RET from what each leaves. -/
theorem witness_RetResult :
    let s := (start [] 0x0F 0x0100 []).setSP 0x0001
    (∃ t u, exec (.call 0x2000) s = .next t ∧ exec .ret t = .next u) ∧
    ∃ t u, exec .calli s = .next t ∧ exec .ret t = .next u := ⟨⟨_, _, rfl, rfl⟩, _, _, rfl, rfl⟩

/-- O27: the reserved opcodes at the ends of their ranges, each at PC of a running state, and NOP. -/
theorem witness_NopIllegalResults :
    (∀ op ∈ [0x00, 0x3F, 0xFB, 0xFC, 0xFF],
      let s := start [] 0x0F 0xFFFF [op]
      s.cpu.variant = ref8Tag ∧ s.cpu.halted = false ∧ s.cpu.accepts = false ∧ s.bus.answer s.cpu.pc = op ∧
      (op = 0x00 ∨ op = 0x3F ∨ 0xFB ≤ op.toNat)) ∧ 0xFC ≤ (0xFC : Byte).toNat := by decide

/-- O31: RETI with an interrupt pending and no shadow. -/
theorem witness_RetiResult :
    let s := (start [] 0x00 0x0100 [0xF3]).setIRQ true
    s.cpu.irq = true ∧ s.cpu.ies = false := by decide

/-- O33: a running state whose bytes at PC, across 0xFFFF, decode: one, two and three bytes. -/
theorem witness_StepRunsDecodedInstruction :
    (∀ code ∈ [[0x00], [0x08, 0xA5], [0xF0, 0x34, 0x12]],
      let s := start [] 0x00 0xFFFF code
      s.cpu.variant = ref8Tag ∧ s.cpu.halted = false ∧ s.cpu.accepts = false ∧
      s.bus.answer s.cpu.pc = code.headD 0x00 ∧ instrLen (code.headD 0x00) = code.length ∧
      (s.bus.afterRead s.cpu.pc).answer (s.cpu.pc + 1) = code.getD 1 0x00 ∧
      ((s.bus.afterRead s.cpu.pc).afterRead (s.cpu.pc + 1)).answer (s.cpu.pc + 2) = code.getD 2 0x00) ∧
    decode ([0x00, 0x00, 0x00].take (instrLen 0x00)) = .ok (.nop, []) ∧
    decode ([0x08, 0xA5, 0x00].take (instrLen 0x08)) = .ok (.ldi 0 0xA5, []) ∧
    decode ([0xF0, 0x34, 0x12].take (instrLen 0xF0)) = .ok (.jmp 0x1234, []) := by decide

/-- O34: the encoding of a three-byte instruction in memory at PC = 0xFFFE. -/
theorem witness_StepRunsEncodedInstruction :
    let s := start [] 0x00 0xFFFE (encode (.ldw 0 0x1234))
    s.cpu.variant = ref8Tag ∧ s.cpu.halted = false ∧ s.cpu.accepts = false ∧ (Instr.ldw 0 0x1234).wellFormed = true ∧
    encode (.ldw 0 0x1234) = [0x30, 0x34, 0x12] ∧
    (s.bus.kindAt s.cpu.pc = .ram ∧ s.memByte s.cpu.pc = 0x30) ∧
    (s.bus.kindAt (s.cpu.pc + 1) = .ram ∧ s.memByte (s.cpu.pc + 1) = 0x34) ∧
    (s.bus.kindAt (s.cpu.pc + 2) = .ram ∧ s.memByte (s.cpu.pc + 2) = 0x12) := by decide

/-- O35: a table word that is read, on a bus where PC is unmapped, and an address that is none of the three. -/
theorem witness_PlacedWordRuns :
    let s := { onMixedBus 0x0000 with cpu := { (onMixedBus 0x0000).cpu with pc := 0xFFFE } }
    s.bus.mem.wf ∧ s.bus.kindAt s.cpu.pc = .unmapped ∧ decodeTableWord 24 0x800012 = some (.ld 2 0x8000) ∧
    (0x0001 : Addr) ≠ s.cpu.pc ∧ (0x0001 : Addr) ≠ s.cpu.pc + 1 ∧ (0x0001 : Addr) ≠ s.cpu.pc + 2 := by decide

/-- O36: an interrupt is accepted, halted or not. -/
theorem witness_AcknowledgeStep :
    let s := ((start [] 0x0C 0x1234 [0x00]).setIE true).setIRQ true
    s.cpu.variant = ref8Tag ∧ s.cpu.accepts = true ∧ (s.setHalted true).cpu.accepts = true := by decide

/-- O37: a halted state of each kind: acknowledge, wake with IE = 0, wake with IES = 1, idle. -/
theorem witness_HaltedSteps :
    let s := (start [] 0x00 0x0100 [0x00]).setHalted true
    s.cpu.variant = ref8Tag ∧ s.cpu.halted = true ∧
    ((s.setIE true).setIRQ true).cpu.accepts = true ∧
    ((s.setIRQ true).cpu.irq = true ∧ (s.setIRQ true).cpu.ie = false) ∧
    ((((s.setIE true).setIES true).setIRQ true).cpu.irq = true ∧ ((s.setIE true).setIES true).cpu.ies = true) ∧
    s.cpu.irq = false := by decide

/-- O38, O40, O43 to O46: REF8 is selected; a step of each kind answers, with the kind it has. -/
theorem witness_step_kinds :
    let s := start [] 0x00 0x0100 [0x03]
    s.cpu.variant = ref8Tag ∧
    (∃ t, step s = .next t ∧ t.obs.kind = some (.exec 0x03)) ∧
    (∃ t, step ((s.setIE true).setIRQ true) = .next t ∧ t.obs.kind = some .irqAck) ∧
    (∃ t, step ((s.setHalted true).setIRQ true) = .next t ∧ t.obs.kind = some .wake) ∧
    (∃ t, step (s.setHalted true) = .next t ∧ t.obs.kind = some .idle) :=
  ⟨rfl, ⟨_, rfl, rfl⟩, ⟨_, rfl, rfl⟩, ⟨_, rfl, rfl⟩, ⟨_, rfl, rfl⟩⟩

/-- O39: the pre-load idle state. O40: a tag that is not REF8's. -/
theorem witness_StepNeedsVariant :
    let s := State.reset
    { s.cpu with variant := 0x00 }.variant = 0x00 ∧ { s.cpu with variant := 0x02 }.variant ≠ ref8Tag := by decide

/-- O41: a state with the invariant that has a step. -/
theorem witness_StepKeepsInvariant :
    let s := (start [0x01] 0x0F 0xFFFF [0xE9]).setSP 0x0001
    s.inv ∧ ∃ t, step s = .next t := ⟨by decide, _, rfl⟩

/-- O44 to O46, over exec: an instruction with two data accesses answers from any state; what it does not write. -/
theorem witness_exec_answers :
    let s := start [] 0x00 0x0101 []
    (∃ t, exec (.push 1) s = .next t) ∧ writesReg 0 (.push 1) = false ∧ writesPC (.push 1) = false ∧
    writesC (.push 1) = false ∧ writesV (.push 1) = false ∧ writesZ (.push 1) = false ∧ writesS (.push 1) = false ∧
    writesIE (.push 1) = false ∧ writesIES (.push 1) = false ∧ writesHalted (.push 1) = false ∧ writesSP .nop = false ∧
    Access.write (s.cpu.sp - 3) ∉ dataAccesses s (.push 1) ∧ Access.write s.cpu.sp ∉ dataAccesses s (.push 1) := by
  refine ⟨⟨_, rfl⟩, ?_⟩
  decide

/-- O47: a step with reads and writes has a next state. -/
theorem witness_TraceAccountsForBus :
    ∃ t, step (start [0x34, 0x12] 0x00 0x0100 [0xE8]) = .next t ∧ t.obs.trace.length = 3 := ⟨_, rfl, rfl⟩

/-- O48: two states with the same CPU on different buses: one pair whose answers agree, one whose answers differ in the
operand byte, where the traces part. -/
theorem witness_StepDeterminedByAnswers :
    let s₁ := start [] 0x00 0x0100 [0x08, 0xA5]
    let s₂ := holding 0x2000 0x7E s₁
    let s₃ := holding 0x0101 0x7E s₁
    s₁.cpu = s₂.cpu ∧ s₁.bus ≠ s₂.bus ∧ s₁.cpu = s₃.cpu ∧
    (∃ t u, step s₁ = .next t ∧ step s₂ = .next u ∧ t.obs = u.obs) ∧
    ∃ t u, step s₁ = .next t ∧ step s₃ = .next u ∧ PartAtAnswer t.obs.trace u.obs.trace :=
  ⟨rfl, by decide, rfl, ⟨_, _, rfl, rfl, rfl⟩, _, _, rfl, rfl, rfl, .inr ⟨rfl, .inl (by decide)⟩⟩

/-- O49: a step that executes EI. -/
theorem witness_EiShadowHolds :
    ∃ t, step (start [] 0x00 0x0100 [0x03]) = .next t ∧ t.obs.kind = some (.exec 0x03) := ⟨_, rfl, rfl⟩

/-- O50: REF8 is selected, and a step on a bus with more than one region. -/
theorem witness_InterruptInputLatch :
    (onMixedBus 0x0000).cpu.variant = ref8Tag ∧ ∃ t, step (onMixedBus 0x0000) = .next t := ⟨rfl, _, rfl⟩

/-- O51: the stop state of a test run. -/
theorem witness_RunOverStaysIdle :
    let s := (start [] 0x00 0x0100 []).setHalted true
    s.cpu.variant = ref8Tag ∧ s.cpu.runOver = true ∧ 0 < 1 := by decide

/-- O52: a RAM address with accesses of its neighbours after the write, a ROM address, an unmapped one. -/
theorem witness_BusLaws :
    mixedBus.mem.wf ∧ mixedBus.kindAt 0x3FFF = .ram ∧
    (∀ e ∈ [BusEvent.write 0x3FFE 0x11, BusEvent.read 0x3FFE 0x11],
      e.access ≠ Access.read 0x3FFF ∧ e.access ≠ Access.write 0x3FFF) ∧
    ((mixedBus.write 0x3FFF 0x5A).replay [.write 0x3FFE 0x11, .read 0x3FFE 0x11]).isSome = true ∧
    mixedBus.kindAt 0x4000 = .rom ∧ mixedBus.kindAt 0xF000 = .unmapped := by decide

/-- O53: two memories in canonical form with the same bytes, built in different orders. -/
theorem witness_CanonicalMemoriesEqual :
    let m := Memory.store (Memory.store [] 0 0x01) 65535 0x02
    let n := Memory.store (Memory.store (Memory.store [] 65535 0x02) 7 0x00) 0 0x01
    m.wf ∧ n.wf ∧ ∀ a, m.byteAt a = n.byteAt a := ⟨by decide, by decide, fun _ => rfl⟩

/-- O54: a CPU of REF8 with every field in use. -/
theorem witness_ImageLayoutAndRoundTrip : imageState.variant = ref8Tag ∧ imageState.f &&& 0xF0 = 0x00 := by decide

/-- O56: REF8 with every field in use, and no variant. -/
theorem witness_ResetEffect :
    imageState.variant = ref8Tag ∧ { imageState with variant := 0x00 }.variant = 0x00 := by decide

/-! ## A second variant, for the OPEN console variant: one opcode, 0xFF, is a lockup, and every other is a no-op -/

/-- Its state. -/
structure Jam where
  a : Byte
  pc : Addr
  f : Bool
  ie : Bool
  cyc : Byte
  latch : Bool
  locked : Bool
  deriving DecidableEq, Repr

/-- A halted cycle of the lockup, an acknowledge with its return context at 0x01FF and its entry at 0x0040, or one opcode. -/
def Jam.step (s : Jam) (b : Bus) : VariantStep Jam :=
  if s.locked then { state := { s with cyc := s.cyc + 1 }, bus := b, cycles := 1, kind := .halted, trace := [] }
  else if s.latch && s.ie then
    { state := { s with pc := 0x0040, ie := false, cyc := s.cyc + 7 },
      bus := (b.write 0x01FF (highByte s.pc)).write 0x01FE (lowByte s.pc), cycles := 7, kind := .acknowledge,
      trace := [.write 0x01FF (highByte s.pc), .write 0x01FE (lowByte s.pc)] }
  else
    { state := { s with pc := s.pc + 1, cyc := s.cyc + 1, locked := b.answer s.pc == 0xFF }, bus := b.afterRead s.pc,
      cycles := 1, kind := .exec [b.answer s.pc], trace := [.read s.pc (b.answer s.pc)] }

/-- The status byte of its image. -/
def Jam.status (s : Jam) : Byte :=
  BitVec.ofNat 8 (s.f.toNat + 2 * s.ie.toNat + 4 * s.latch.toNat + 8 * s.locked.toNat)

/-- Tag, version, A, PC low byte first, the cycle counter, the status byte. -/
def Jam.serialize (s : Jam) : List Byte := [0x02, 0x01, s.a, lowByte s.pc, highByte s.pc, s.cyc, s.status]

/-- The checks in the order of 10_state.md R64. -/
def Jam.deserialize (b : List Byte) : Except LoadError Jam :=
  match b with
  | [t, v, a, lo, hi, n, st] =>
    if t ≠ 0x02 then .error .corruptData
    else if 1 < v.toNat then .error .versionMismatch
    else if v = 0x00 ∨ st &&& 0xF0 ≠ 0x00 then .error .corruptData
    else
      .ok { a := a, pc := word16 hi lo, f := st.getLsbD 0, ie := st.getLsbD 1, cyc := n, latch := st.getLsbD 2,
            locked := st.getLsbD 3 }
  | _ => .error .corruptData

/-- The version byte of an image of its length with its tag. -/
def Jam.versionTag (b : List Byte) : Option Nat :=
  match b with
  | [t, v, _, _, _, _, _] => if t = 0x02 then some v.toNat else none
  | _ => none

/-- The variant. -/
def jamVariant : Variant Jam :=
  { tag := 0x02
    valid := fun _ => True
    registerFile := [("A", 8)]
    registers := fun s => [s.a.toNat]
    programCounter := fun s => s.pc.toNat
    programWidth := 16
    programCounterHolds := fun p => p < 65536
    flagBits := fun s => s.f.toNat
    flagsHold := fun f => f < 2
    interruptEnable := fun s => s.ie.toNat
    enableHolds := fun e => e < 2
    enables := fun e => e == 1
    cycleCounter := fun s => s.cyc.toNat
    cycleWidth := 8
    withCycles := fun s n => { s with cyc := BitVec.ofNat 8 n }
    pending := fun s => s.latch
    masked := fun s => s.locked
    returnContext := fun s => [highByte s.pc, lowByte s.pc]
    returnAddress := fun l => (word16 (l.getD 0 0x00) (l.getD 1 0x00)).toNat
    vectorReads := fun _ => []
    handlerEntry := fun _ _ => 0x0040
    illegal := fun _ code => if code = [0xFF] then some .lockup else none
    transfers := fun _ _ => false
    halted := fun s => s.locked
    lockedUp := fun s => s.locked
    reset := { a := 0x00, pc := 0x0000, f := false, ie := false, cyc := 0x00, latch := false, locked := false }
    step := Jam.step
    interrupt := fun s level => { s with latch := level }
    serialize := Jam.serialize
    deserialize := Jam.deserialize
    magic := [0x02]
    versionTag := Jam.versionTag
    supportedVersion := 1
    structureHolds := fun b => decide (b.getD 1 0x00 ≠ 0x00) && decide (b.getD 6 0x00 &&& 0xF0 = 0x00) }

theorem jam_accepts (s : Jam) : jamVariant.accepts s = (s.latch && s.ie && !s.locked) := by
  show (s.latch && (s.ie.toNat == 1) && !s.locked) = _
  cases s.ie <;> rfl

/-- The three things a step of it can do. -/
theorem jam_cases (s : Jam) (b : Bus) :
    (s.locked = true ∧ Jam.step s b =
      { state := { s with cyc := s.cyc + 1 }, bus := b, cycles := 1, kind := .halted, trace := [] }) ∨
    (s.locked = false ∧ s.latch = true ∧ s.ie = true ∧ Jam.step s b =
      { state := { s with pc := 0x0040, ie := false, cyc := s.cyc + 7 },
        bus := (b.write 0x01FF (highByte s.pc)).write 0x01FE (lowByte s.pc), cycles := 7, kind := .acknowledge,
        trace := [.write 0x01FF (highByte s.pc), .write 0x01FE (lowByte s.pc)] }) ∨
    (s.locked = false ∧ (s.latch && s.ie) = false ∧ Jam.step s b =
      { state := { s with pc := s.pc + 1, cyc := s.cyc + 1, locked := b.answer s.pc == 0xFF }, bus := b.afterRead s.pc,
        cycles := 1, kind := .exec [b.answer s.pc], trace := [.read s.pc (b.answer s.pc)] }) := by
  cases h : s.locked <;> cases l : s.latch <;> cases i : s.ie <;> simp [Jam.step, h, l, i]

theorem jam_acknowledge {s : Jam} {b : Bus} (h : (Jam.step s b).kind = .acknowledge) :
    (Jam.step s b).cycles = 7 ∧ (Jam.step s b).state.pc = 0x0040 ∧
      (Jam.step s b).trace = [.write 0x01FF (highByte s.pc), .write 0x01FE (lowByte s.pc)] := by
  rcases jam_cases s b with ⟨-, e⟩ | ⟨-, -, -, e⟩ | ⟨-, -, e⟩ <;> rw [e] at h ⊢
  · cases h
  · exact ⟨rfl, rfl, rfl⟩
  · cases h

theorem jam_exec {s : Jam} {b : Bus} {code : List Byte} (h : (Jam.step s b).kind = .exec code) :
    code = [b.answer s.pc] ∧ (Jam.step s b).state.pc = s.pc + 1 ∧ (Jam.step s b).trace = [.read s.pc (b.answer s.pc)] ∧
      (Jam.step s b).state.locked = (b.answer s.pc == 0xFF) := by
  rcases jam_cases s b with ⟨-, e⟩ | ⟨-, -, -, e⟩ | ⟨-, -, e⟩ <;> rw [e] at h ⊢
  · cases h
  · cases h
  · injection h with h; exact ⟨h.symm, rfl, rfl, rfl⟩

theorem jam_codeReads (s : Jam) (v : Byte) : jamVariant.codeReads s [v] = [.read s.pc v] := by
  show [BusEvent.read (BitVec.ofNat 16 (s.pc.toNat % 65536)) v] = _
  rw [Nat.mod_eq_of_lt s.pc.isLt, BitVec.ofNat_toNat, BitVec.setWidth_eq]

theorem jam_status (s : Jam) : s.status &&& 0xF0 = 0x00 ∧ s.status.getLsbD 0 = s.f ∧ s.status.getLsbD 1 = s.ie ∧
    s.status.getLsbD 2 = s.latch ∧ s.status.getLsbD 3 = s.locked := by
  unfold Jam.status
  cases s.f <;> cases s.ie <;> cases s.latch <;> cases s.locked <;> decide

theorem word16_halves (v : Addr) : word16 (highByte v) (lowByte v) = v := by
  apply BitVec.eq_of_getLsbD_eq
  intro i hi
  simp only [word16, highByte, lowByte, BitVec.getLsbD_append, BitVec.getLsbD_extractLsb']
  interval_cases i <;> simp

theorem jam_round_trip (s : Jam) : Jam.deserialize s.serialize = .ok s := by
  obtain ⟨h0, h1, h2, h3, h4⟩ := jam_status s
  simp only [Jam.deserialize, Jam.serialize, h0, h1, h2, h3, h4, word16_halves]
  rfl

/-- Seven bytes with the tag, where there is a version tag. -/
theorem jam_framed {b : List Byte} {v : Nat} (h : Jam.versionTag b = some v) :
    ∃ w a lo hi n st, b = [0x02, w, a, lo, hi, n, st] ∧ w.toNat = v := by
  unfold Jam.versionTag at h
  split at h
  · split at h
    · injection h with h; subst_vars; exact ⟨_, _, _, _, _, _, rfl, rfl⟩
    · cases h
  · cases h

theorem jam_unframed {b : List Byte} (h : Jam.versionTag b = none) : Jam.deserialize b = .error .corruptData := by
  unfold Jam.versionTag at h
  unfold Jam.deserialize
  split
  · simp only at h
    split at h
    · cases h
    · rename_i ht; rw [if_pos ht]
  · rfl

theorem jam_magic {b : List Byte} (h : ¬ [0x02] <+: b) : Jam.versionTag b = none := by
  cases hv : Jam.versionTag b with
  | none => rfl
  | some v =>
    obtain ⟨w, a, lo, hi, n, st, rfl, -⟩ := jam_framed hv
    exact absurd ⟨[w, a, lo, hi, n, st], rfl⟩ h

theorem jam_structure (w a lo hi n st : Byte) :
    jamVariant.structureHolds [0x02, w, a, lo, hi, n, st] = true ↔ ¬ (w = 0x00 ∨ st &&& 0xF0 ≠ 0x00) := by
  show (decide (w ≠ 0x00) && decide (st &&& 0xF0 = 0x00)) = true ↔ _
  simp only [Bool.and_eq_true, decide_eq_true_eq, not_or, not_not, ne_eq]

theorem bool_of_nat {e : Nat} (h : e < 2) : (e == 1).toNat = e := by interval_cases e <;> rfl

/-- The contract can be met with a lockup. -/
theorem jam_contract : jamVariant.ConsoleContract where
  tag_console := by decide
  tag_selected := by decide
  reset_valid := trivial
  step_valid := fun _ _ _ => trivial
  interrupt_valid := fun _ _ _ => trivial
  register_file := by decide
  registers_fixed := fun s _ => .cons s.a.isLt .nil
  contents_fixed := fun s _ => ⟨s.pc.isLt, Bool.toNat_lt s.f, Bool.toNat_lt s.ie, s.cyc.isLt⟩
  contents_held := fun rs p f e n hrs hp hf he hn => by
    match rs, hrs with
    | [a], .cons ha .nil =>
      have ha : a < 2 ^ 8 := ha
      have hp : p < 2 ^ 16 := hp
      have hn : n < 2 ^ 8 := hn
      refine ⟨{ a := BitVec.ofNat 8 a, pc := BitVec.ofNat 16 p, f := f == 1, ie := e == 1, cyc := BitVec.ofNat 8 n,
                latch := false, locked := false }, trivial, ?_, ?_, bool_of_nat hf, bool_of_nat he, ?_⟩
      · exact congrArg (fun x => [x]) (Nat.mod_eq_of_lt ha)
      · exact Nat.mod_eq_of_lt hp
      · exact Nat.mod_eq_of_lt hn
  contents_several := ⟨⟨0, 1, by decide, by show 0 < 65536; decide, by show 1 < 65536; decide⟩,
    ⟨0, 1, by decide, by show 0 < 2; decide, by show 1 < 2; decide⟩, ⟨1, by show 1 < 2; decide, rfl⟩,
    ⟨0, by show 0 < 2; decide, rfl⟩, by decide⟩
  program_width := fun _ h => h
  progress := fun s b _ => by
    show 1 ≤ (Jam.step s b).cycles
    rcases jam_cases s b with ⟨-, e⟩ | ⟨-, -, -, e⟩ | ⟨-, -, e⟩ <;> rw [e] <;> simp only [Nat.one_le_ofNat]
  cycles_counted := fun s b _ => by
    show (Jam.step s b).cycles < 2 ^ 8 ∧ (Jam.step s b).state.cyc.toNat = (s.cyc.toNat + (Jam.step s b).cycles) % 2 ^ 8
    rcases jam_cases s b with ⟨-, e⟩ | ⟨-, -, -, e⟩ | ⟨-, -, e⟩ <;> rw [e] <;>
      exact ⟨by simp only; omega, BitVec.toNat_add _ _⟩
  cycles_own := fun s _ => by simp [jamVariant]
  cycles_alone := fun _ _ => ⟨⟨rfl, rfl, rfl, rfl, rfl, rfl⟩, rfl, rfl⟩
  exec_fetches := fun s b code _ h => by
    obtain ⟨rfl, -, ht, -⟩ := jam_exec h
    have ht : (jamVariant.step s b).trace = _ := ht
    rw [ht, jam_codeReads]
    exact ⟨by simp, List.Sublist.refl _, rfl⟩
  exec_advances := fun s b code _ h _ => by
    obtain ⟨rfl, hp, -, -⟩ := jam_exec h
    show (Jam.step s b).state.pc.toNat = (s.pc.toNat + 1) % 2 ^ 16
    rw [hp]; exact BitVec.toNat_add _ _
  halted_iff := fun s b _ => by
    rw [jam_accepts]
    show (Jam.step s b).kind = _ ↔ s.locked = true ∧ _
    rcases jam_cases s b with ⟨h, e⟩ | ⟨h, -, -, e⟩ | ⟨h, -, e⟩ <;> rw [e] <;> simp [h]
  halted_alone := fun s b _ h => by
    have h : (Jam.step s b).kind = .halted := h
    have hs : jamVariant.step s b = Jam.step s b := rfl
    rw [hs]
    rcases jam_cases s b with ⟨-, e⟩ | ⟨-, -, -, e⟩ | ⟨-, -, e⟩ <;> rw [e] at h ⊢
    · exact ⟨⟨rfl, rfl, rfl, rfl, rfl, rfl⟩, rfl, rfl⟩
    · cases h
    · cases h
  halted_cycle := fun s b _ h _ => by
    have h : (Jam.step s b).kind = .halted := h
    show (Jam.step s b).cycles = 1
    rcases jam_cases s b with ⟨-, e⟩ | ⟨-, -, -, e⟩ | ⟨-, -, e⟩ <;> rw [e] at h ⊢
    cases h
  acknowledge_iff := fun s b _ => by
    rw [jam_accepts]
    show (Jam.step s b).kind = _ ↔ _
    rcases jam_cases s b with ⟨h, e⟩ | ⟨h, l, i, e⟩ | ⟨h, i, e⟩ <;> rw [e] <;> simp_all
  acknowledge_constant := ⟨7, fun _ _ _ h => (jam_acknowledge h).1⟩
  acknowledge_pushes := fun s b _ h => by
    have ht : (jamVariant.step s b).trace = _ := (jam_acknowledge h).2.2
    rw [ht]; rfl
  context_returns := fun s _ => congrArg BitVec.toNat (word16_halves s.pc)
  acknowledge_fetches_nothing := fun s b _ h => by
    have ht : (jamVariant.step s b).trace = _ := (jam_acknowledge h).2.2
    rw [ht]; rfl
  acknowledge_jumps := fun s b _ h => congrArg BitVec.toNat (jam_acknowledge h).2.1
  illegal_noOp := fun _ _ code _ _ h => by
    have h : (if code = [0xFF] then some IllegalTreatment.lockup else none) = some .noOp := h
    split at h <;> cases h
  illegal_lockup := fun s b code _ h hi => by
    obtain ⟨rfl, -, -, hl⟩ := jam_exec h
    have hi : (if [b.answer s.pc] = [0xFF] then some IllegalTreatment.lockup else none) = some .lockup := hi
    show (Jam.step s b).state.locked = true
    rw [hl]
    split at hi
    · rename_i h; injection h with h; rw [h]; rfl
    · cases hi
  lockup_halts := fun s _ h => ⟨h, by
    have h : s.locked = true := h
    rw [jam_accepts, h, Bool.not_true, Bool.and_false]⟩
  lockup_changes_cycles := fun s b _ h => by
    have h : s.locked = true := h
    show (Jam.step s b).state = { s with cyc := BitVec.ofNat 8 (Jam.step s b).state.cyc.toNat } ∧
      (Jam.step s b).bus = b ∧ (Jam.step s b).trace = []
    simp only [Jam.step, h, if_true, BitVec.ofNat_toNat, BitVec.setWidth_eq]
    exact ⟨trivial, trivial, trivial⟩
  lockup_repeats := fun s b b' level _ h => by
    have h : s.locked = true := h
    simp [Jam.step, jamVariant, h]
  trace_faithful := fun s b _ => by
    show b.replay (Jam.step s b).trace = some (Jam.step s b).bus
    rcases jam_cases s b with ⟨-, e⟩ | ⟨-, -, -, e⟩ | ⟨-, -, e⟩ <;> rw [e] <;> simp [Bus.replay]
  determined := fun s b₁ b₂ _ => by
    show ((Jam.step s b₁).state = (Jam.step s b₂).state ∧ (Jam.step s b₁).cycles = (Jam.step s b₂).cycles ∧
      (Jam.step s b₁).kind = (Jam.step s b₂).kind ∧ (Jam.step s b₁).trace = (Jam.step s b₂).trace) ∨
      PartAtAnswer (Jam.step s b₁).trace (Jam.step s b₂).trace
    by_cases hv : b₁.answer s.pc = b₂.answer s.pc
    · left
      unfold Jam.step
      rw [hv]
      split
      · exact ⟨rfl, rfl, rfl, rfl⟩
      · split <;> exact ⟨rfl, rfl, rfl, rfl⟩
    · unfold Jam.step
      split
      · exact .inl ⟨rfl, rfl, rfl, rfl⟩
      · split
        · exact .inl ⟨rfl, rfl, rfl, rfl⟩
        · exact .inr ⟨rfl, .inl hv⟩
  interrupt_sets := fun _ _ _ => rfl
  interrupt_alone := fun _ _ _ => ⟨⟨rfl, rfl, rfl, rfl, rfl, rfl⟩, rfl, rfl⟩
  interrupt_same := fun _ _ => rfl
  interrupt_last := fun _ _ _ _ => rfl
  image_round_trip := fun s _ => jam_round_trip s
  image_valid := fun _ _ _ => trivial
  image_truncated := fun s n _ h => by
    have h : n < 7 := h
    interval_cases n <;> rfl
  image_magic := fun s _ => ⟨s.serialize.tail, rfl⟩
  image_mismatched := fun _ h => jam_unframed (jam_magic h)
  image_unframed := fun _ h => jam_unframed h
  image_newer := fun b v h hv => by
    obtain ⟨w, a, lo, hi, n, st, rfl, rfl⟩ := jam_framed h
    have hv : 1 < w.toNat := hv
    show Jam.deserialize [0x02, w, a, lo, hi, n, st] = _
    simp only [Jam.deserialize]
    rw [if_neg (by simp), if_pos hv]
  image_invalid := fun b v h hv hs => by
    obtain ⟨w, a, lo, hi, n, st, rfl, rfl⟩ := jam_framed h
    have hv : ¬ 1 < w.toNat := Nat.not_lt.mpr hv
    have hs : w = 0x00 ∨ st &&& 0xF0 ≠ 0x00 := by
      by_contra hn
      exact Bool.false_ne_true (hs.symm.trans ((jam_structure w a lo hi n st).mpr hn))
    show Jam.deserialize [0x02, w, a, lo, hi, n, st] = _
    simp only [Jam.deserialize]
    rw [if_neg (by simp), if_neg hv, if_pos hs]
  image_accepted := fun b v h hv hs => by
    obtain ⟨w, a, lo, hi, n, st, rfl, rfl⟩ := jam_framed h
    have hv : ¬ 1 < w.toNat := Nat.not_lt.mpr hv
    refine ⟨Jam.mk a (word16 hi lo) (st.getLsbD 0) (st.getLsbD 1) n (st.getLsbD 2) (st.getLsbD 3), ?_⟩
    show Jam.deserialize [0x02, w, a, lo, hi, n, st] = _
    simp only [Jam.deserialize]
    rw [if_neg (by simp), if_neg hv, if_neg ((jam_structure w a lo hi n st).mp hs)]

/-- O57: each way a tag can be chosen, with a console variant of the lowest tag; for REF8 and for the console variant an image
that is accepted and one that is not; each kind of CPU. -/
theorem witness_LoadRomEffect :
    0x02 ≤ jamVariant.tag.toNat ∧
    (∀ tag ∈ [none, some 0x01, some 0x02, some 0x03], ∃ select : List Byte → Option Byte, select [] = tag) ∧
    (0x03 : Byte) ≠ 0x01 ∧ (0x03 : Byte) ≠ jamVariant.tag ∧
    Cpu.deserialize imageBytes = .ok imageState ∧ Cpu.deserialize [] = .error .corruptData ∧
    jamVariant.deserialize [0x02, 0x01, 0x5A, 0x34, 0x12, 0x07, 0x05] =
      .ok { a := 0x5A, pc := 0x1234, f := true, ie := false, cyc := 0x07, latch := true, locked := false } ∧
    jamVariant.deserialize [0x02, 0x02, 0x5A, 0x34, 0x12, 0x07, 0x05] = .error .versionMismatch ∧
    (∀ cpu : AnyCpu Jam, ∃ m : Platform Jam, m.cpu = cpu) ∧
    ∃ good bad : Except LoadError Bus, good = .ok Bus.reference ∧ bad = .error .corruptData := by
  refine ⟨by decide, fun tag _ => ⟨fun _ => tag, rfl⟩, by decide, by decide, by decide, by decide, by decide, by decide,
    fun cpu => ⟨{ cpu := cpu, bus := Bus.reference }, rfl⟩, _, _, rfl, rfl⟩

/-- O59: a variant with the contract, and a valid CPU of each kind. -/
theorem witness_AnyVariantFrame :
    jamVariant.ConsoleContract ∧ (AnyCpu.console jamVariant.reset).valid jamVariant ∧
    (AnyCpu.console jamVariant.reset).tag jamVariant ≠ 0x00 ∧
    (AnyCpu.ref8 imageState : AnyCpu Jam).valid jamVariant ∧ (AnyCpu.ref8 imageState : AnyCpu Jam).tag jamVariant ≠ 0x00 ∧
    (AnyCpu.preLoad : AnyCpu Jam).valid jamVariant ∧ (AnyCpu.preLoad : AnyCpu Jam).tag jamVariant = 0x00 :=
  ⟨jam_contract, trivial, by decide, ⟨by decide, by decide⟩, by decide, trivial, by decide⟩

end Sys2Proof.Tests
end

section
/-! SUPPORT. What every instruction does and leaves unchanged: the state `exec` ends in, the frame of each field of the CPU
record by the writer tables of 10_state.md R33 and R38 to R44, and the cycles charged. A frame lemma splits over the
instructions: the listed writers and the conditional branches contradict its hypotheses (`cases h`, `cases hb`), the
branches are treated together, and what every other instruction leaves it leaves by definition (`rfl`). -/

namespace Sys2Proof.Machine

/-! ## The state an instruction ends in -/

/-- The state `exec` ends in; every instruction has one (`exec_eq_after`). -/
def State.after (s : State) (i : Instr) : State :=
  match exec i s with
  | .next t => t
  | _ => s

/-- No instruction faults or is refused (60_exceptions.md R287). -/
theorem exec_eq_after (i : Instr) (s : State) : exec i s = .next (s.after i) := by
  cases i <;> rfl

theorem exec_eq_next_iff {i : Instr} {s t : State} : exec i s = .next t ↔ t = s.after i := by
  rw [exec_eq_after, Host.Outcome.next.injEq, eq_comm]

/-- The condition field and the offset of a conditional branch; none for every other instruction. -/
def branchOf : Instr → Option (Fin 8 × Byte)
  | .beq rel => some (0, rel)
  | .bne rel => some (1, rel)
  | .bcs rel => some (2, rel)
  | .bcc rel => some (3, rel)
  | .bmi rel => some (4, rel)
  | .bpl rel => some (5, rel)
  | .bvs rel => some (6, rel)
  | .bvc rel => some (7, rel)
  | _ => none

theorem State.branchIf_eq (s : State) (taken : Bool) (rel : Byte) :
    s.branchIf taken rel =
      s.afterQuiet { s.cpu with pc := if taken then relTarget s.cpu.pc rel else s.cpu.pc } (if taken then 3 else 2) := by
  cases taken <;> rfl

/-- The eight conditional branches have one meaning over their condition fields (42_control_transfer.md R230). -/
theorem State.after_branch {i : Instr} {c : Fin 8} {rel : Byte} (h : branchOf i = some (c, rel)) (s : State) :
    s.after i = s.afterQuiet
      { s.cpu with pc := if cond c s.flags then relTarget s.cpu.pc rel else s.cpu.pc }
      (if cond c s.flags then 3 else 2) := by
  rw [← State.branchIf_eq]
  cases i <;> cases h <;> rfl

/-! ## The frame of each field, by its writer table (10_state.md R33, R38 to R47) -/

theorem State.after_sp {i : Instr} (h : writesSP i = false) (s : State) : (s.after i).cpu.sp = s.cpu.sp := by
  rcases hb : branchOf i with _ | ⟨c, rel⟩
  · cases i <;> cases hb <;> cases h <;> rfl
  · rw [State.after_branch hb]; rfl

theorem State.after_ie {i : Instr} (h : writesIE i = false) (s : State) : (s.after i).cpu.ie = s.cpu.ie := by
  rcases hb : branchOf i with _ | ⟨c, rel⟩
  · cases i <;> cases hb <;> cases h <;> rfl
  · rw [State.after_branch hb]; rfl

theorem State.after_ies {i : Instr} (h : writesIES i = false) (s : State) : (s.after i).cpu.ies = s.cpu.ies := by
  rcases hb : branchOf i with _ | ⟨c, rel⟩
  · cases i <;> cases hb <;> cases h <;> rfl
  · rw [State.after_branch hb]; rfl

theorem State.after_halted {i : Instr} (h : writesHalted i = false) (s : State) :
    (s.after i).cpu.halted = s.cpu.halted := by
  rcases hb : branchOf i with _ | ⟨c, rel⟩
  · cases i <;> cases hb <;> cases h <;> rfl
  · rw [State.after_branch hb]; rfl

/-- No instruction writes the interrupt input latch, the tag or the kind of the step (10_state.md R45, R47). -/
theorem State.after_fixed (i : Instr) (s : State) :
    (s.after i).cpu.irq = s.cpu.irq ∧ (s.after i).cpu.variant = s.cpu.variant ∧
      (s.after i).obs.kind = s.obs.kind := by
  rcases hb : branchOf i with _ | ⟨c, rel⟩
  · cases i <;> cases hb <;> exact ⟨rfl, rfl, rfl⟩
  · rw [State.after_branch hb]; exact ⟨rfl, rfl, rfl⟩

/-- PC keeps the address of the next instruction unless the instruction is a control transfer from this state
(70_reset_and_hazards.md R335). -/
theorem State.after_pc_of_not_transfers {i : Instr} {s : State} (h : transfers s i = false) :
    (s.after i).cpu.pc = s.cpu.pc := by
  rcases hb : branchOf i with _ | ⟨c, rel⟩
  · cases i <;> cases hb <;> cases h <;> rfl
  · have hc : cond c s.flags = false := by cases i <;> cases hb <;> exact h
    rw [State.after_branch hb, hc]; rfl

theorem transfers_of_not_writesPC {i : Instr} (h : writesPC i = false) (s : State) : transfers s i = false := by
  cases i <;> cases h <;> rfl

theorem State.after_pc {i : Instr} (h : writesPC i = false) (s : State) : (s.after i).cpu.pc = s.cpu.pc :=
  State.after_pc_of_not_transfers (transfers_of_not_writesPC h s)

theorem State.setPair_reg_other (s : State) {p : PairIdx} {q : RegIdx} (v : Addr)
    (h : (pairLow p == q || pairHigh p == q) = false) : (s.setPair p v).reg q = s.reg q := by
  simp only [Bool.or_eq_false_iff, beq_eq_false_iff_ne] at h
  obtain ⟨hlow, hhigh⟩ := h
  rw [State.setPair, State.setReg_reg_other _ _ _ _ hlow, State.setReg_reg_other _ _ _ _ hhigh]

theorem State.after_reg {i : Instr} {q : RegIdx} (h : writesReg q i = false) (s : State) :
    (s.after i).reg q = s.reg q := by
  rcases hb : branchOf i with _ | ⟨c, rel⟩
  · cases i
    case ldi | ld | ldx | mov | inc | dec => exact State.setReg_reg_other _ _ _ _ (beq_eq_false_iff_ne.mp h)
    case ldw | incw | decw | getsp | pop => exact State.setPair_reg_other _ _ h
    case mul =>
      obtain ⟨h0, h1⟩ : q ≠ 0 ∧ q ≠ 1 := by simpa [writesReg] using h
      exact (State.setReg_reg_other _ 0 q _ h0.symm).trans (State.setReg_reg_other _ 1 q _ h1.symm)
    case div =>
      obtain ⟨h0, h1⟩ : q ≠ 0 ∧ q ≠ 1 := by simpa [writesReg] using h
      exact (State.setReg_reg_other _ 1 q _ h1.symm).trans (State.setReg_reg_other _ 0 q _ h0.symm)
    case add | adc | sub | sbc | and | xor | or | addi | adci | subi | sbci | andi | xori | ori | shl | shr | sar | rcl | rcr
        | not | neg | swap =>
      exact State.setReg_reg_other _ _ _ _ (Ne.symm (beq_eq_false_iff_ne.mp h))
    all_goals cases hb <;> rfl
  · rw [State.after_branch hb]; rfl

/-! ## Flags -/

theorem State.setCVZS_flags (s : State) (c v z n : Bool) : (s.setCVZS c v z n).flags = packFlags c v z n := by
  simp [State.setCVZS, State.flags]

/-- Writing V, Z and S leaves C (40_alu.md R133), whatever register is written and cycles are charged beside it. -/
theorem State.writeAluKeepC_flagC (s : State) (r : RegIdx) (x : AluOut) (n : Nat) :
    ((s.writeAluKeepC r x).charge n).flagC = s.flagC := by
  simp [State.writeAluKeepC, State.setVZS, State.flagC, State.setCVZS_flags]

/-- Writing Z alone leaves C, V and S (40_alu.md R133). -/
theorem State.setZ_charge_flags (s : State) (z : Bool) (n : Nat) :
    ((s.setZ z).charge n).flagC = s.flagC ∧ ((s.setZ z).charge n).flagV = s.flagV ∧
      ((s.setZ z).charge n).flagS = s.flagS := by
  simp [State.setZ, State.flagC, State.flagV, State.flagS, State.setCVZS_flags]

/-- Writing C alone leaves V, Z and S (40_alu.md R133). -/
theorem State.setC_charge_flags (s : State) (c : Bool) (n : Nat) :
    ((s.setC c).charge n).flagV = s.flagV ∧ ((s.setC c).charge n).flagZ = s.flagZ ∧
      ((s.setC c).charge n).flagS = s.flagS := by
  simp [State.setC, State.flagV, State.flagZ, State.flagS, State.setCVZS_flags]

theorem State.after_flagC {i : Instr} (h : writesC i = false) (s : State) : (s.after i).flagC = s.flagC := by
  rcases hb : branchOf i with _ | ⟨c, rel⟩
  · cases i
    case inc | dec | not | swap => exact State.writeAluKeepC_flagC _ _ _ _
    case incw | decw => exact (State.setZ_charge_flags _ _ _).1
    all_goals cases hb <;> cases h <;> rfl
  · rw [State.after_branch hb]; rfl

theorem State.after_flagV {i : Instr} (h : writesV i = false) (s : State) : (s.after i).flagV = s.flagV := by
  rcases hb : branchOf i with _ | ⟨c, rel⟩
  · cases i
    case clc | sec | cmc => exact (State.setC_charge_flags _ _ _).1
    case incw | decw => exact (State.setZ_charge_flags _ _ _).2.1
    all_goals cases hb <;> cases h <;> rfl
  · rw [State.after_branch hb]; rfl

theorem State.after_flagZ {i : Instr} (h : writesZ i = false) (s : State) : (s.after i).flagZ = s.flagZ := by
  rcases hb : branchOf i with _ | ⟨c, rel⟩
  · cases i
    case clc | sec | cmc => exact (State.setC_charge_flags _ _ _).2.1
    all_goals cases hb <;> cases h <;> rfl
  · rw [State.after_branch hb]; rfl

theorem State.after_flagS {i : Instr} (h : writesS i = false) (s : State) : (s.after i).flagS = s.flagS := by
  rcases hb : branchOf i with _ | ⟨c, rel⟩
  · cases i
    case clc | sec | cmc => exact (State.setC_charge_flags _ _ _).2.2
    case incw | decw => exact (State.setZ_charge_flags _ _ _).2.2
    all_goals cases hb <;> cases h <;> rfl
  · rw [State.after_branch hb]; rfl

/-- Every write of F masks it, so bits 7..4 stay clear (10_state.md R37). -/
theorem State.after_f_clear {s : State} (h : s.cpu.f &&& 0xF0 = 0x00) (i : Instr) :
    (s.after i).cpu.f &&& 0xF0 = 0x00 := by
  rcases hb : branchOf i with _ | ⟨c, rel⟩
  · cases hw : writesZ i || writesC i
    · cases i <;> cases hb <;> cases hw <;> exact h
    · cases i <;> cases hb <;> cases hw <;> exact maskFlags_high _
  · rw [State.after_branch hb]; exact h

/-! ## Cycles -/

/-- An instruction charges 1 to 16 cycles, and adds what it charges to CYC (60_exceptions.md R302; 10_state.md R46). -/
theorem State.after_cycles (i : Instr) (s : State) :
    1 ≤ (s.after i).obs.cycles ∧ (s.after i).obs.cycles ≤ 16 ∧
      (s.after i).cpu.cyc = s.cpu.cyc + BitVec.ofNat 64 (s.after i).obs.cycles := by
  rcases hb : branchOf i with _ | ⟨c, rel⟩
  · cases i <;> cases hb <;> exact ⟨Nat.le_of_ble_eq_true rfl, Nat.le_of_ble_eq_true rfl, rfl⟩
  · rw [State.after_branch hb]
    cases cond c s.flags <;> exact ⟨Nat.le_of_ble_eq_true rfl, Nat.le_of_ble_eq_true rfl, rfl⟩

end Sys2Proof.Machine
end

section
/-! SUPPORT. The bus accesses of every instruction: what a replayed trace does to the bus, and that each instruction makes
the accesses of 20_memory.md R80 and uses the bus in no other way. -/

namespace Sys2Proof.Machine

/-! ## What a trace does to the bus (20_memory.md R91) -/

/-- One access leaves the region map, the canonical form of memory and every byte it does not write. -/
theorem Bus.replay_cons {b b' : Bus} {e : BusEvent} {events : List BusEvent} (h : b.replay (e :: events) = some b') :
    ∃ b₁ : Bus, b₁.replay events = some b' ∧ b₁.regions = b.regions ∧ (b.mem.wf → b₁.mem.wf) ∧
      ∀ x, e.access ≠ .write x → b₁.mem.byteAt x.toNat = b.mem.byteAt x.toNat := by
  cases e with
  | read a v =>
    simp only [Bus.replay] at h
    split at h
    · exact ⟨_, h, by simp, by simp, by simp⟩
    · cases h
  | write a v =>
    refine ⟨_, h, by simp, Bus.write_wf b a v, fun x hx => ?_⟩
    exact Bus.write_byteAt_other b a x v fun hax => hx (by rw [hax]; rfl)

theorem Bus.replay_regions {b b' : Bus} {events : List BusEvent} (h : b.replay events = some b') :
    b'.regions = b.regions := by
  induction events generalizing b with
  | nil => injection h with h; rw [h]
  | cons e events ih =>
    obtain ⟨b₁, h₁, hregions, -, -⟩ := Bus.replay_cons h
    rw [ih h₁, hregions]

theorem Bus.replay_wf {b b' : Bus} {events : List BusEvent} (h : b.replay events = some b') (hwf : b.mem.wf) :
    b'.mem.wf := by
  induction events generalizing b with
  | nil => injection h with h; rwa [← h]
  | cons e events ih =>
    obtain ⟨b₁, h₁, -, hkeep, -⟩ := Bus.replay_cons h
    exact ih h₁ (hkeep hwf)

theorem Bus.replay_byteAt_other {b b' : Bus} {events : List BusEvent} {x : Addr} (h : b.replay events = some b')
    (hx : Access.write x ∉ events.map BusEvent.access) : b'.mem.byteAt x.toNat = b.mem.byteAt x.toNat := by
  induction events generalizing b with
  | nil => injection h with h; rw [h]
  | cons e events ih =>
    obtain ⟨b₁, h₁, -, -, hbyte⟩ := Bus.replay_cons h
    rw [List.map_cons, List.mem_cons, not_or] at hx
    rw [ih h₁ hx.2, hbyte x (Ne.symm hx.1)]

theorem Bus.replay_append {b b₁ b₂ : Bus} {l m : List BusEvent} (hl : b.replay l = some b₁)
    (hm : b₁.replay m = some b₂) : b.replay (l ++ m) = some b₂ := by
  induction l generalizing b with
  | nil => injection hl with hl; rwa [List.nil_append, hl]
  | cons e l ih =>
    cases e with
    | read a v =>
      simp only [Bus.replay, List.cons_append] at hl ⊢
      split at hl
      · next hv => rw [if_pos hv]; exact ih hl
      · cases hl
    | write a v => exact ih hl

/-! ## Going from one state to another by a list of accesses -/

/-- `t` is reached from `s` with exactly the accesses `events`: they are what its trace has more, and replaying them on the
bus of `s` gives the bus of `t` (20_memory.md R91). -/
structure State.Accesses (s : State) (events : List BusEvent) (t : State) : Prop where
  /-- The trace of the step is longer by them. -/
  trace : t.obs.trace = s.obs.trace ++ events
  /-- They account for the bus. -/
  replay : s.bus.replay events = some t.bus

theorem State.Accesses.none {s t : State} (htrace : t.obs.trace = s.obs.trace) (hbus : t.bus = s.bus) :
    s.Accesses [] t :=
  ⟨by rw [htrace, List.append_nil], by rw [hbus]; rfl⟩

theorem State.Accesses.trans {s t u : State} {l m : List BusEvent} (h₁ : s.Accesses l t) (h₂ : t.Accesses m u) :
    s.Accesses (l ++ m) u :=
  ⟨by rw [h₂.trace, h₁.trace, List.append_assoc], Bus.replay_append h₁.replay h₂.replay⟩

theorem State.memRead_accesses (s : State) (a : Addr) : s.Accesses [.read a (s.bus.answer a)] (s.memRead a).2 :=
  ⟨rfl, by simp [Bus.replay]⟩

theorem State.memWrite_accesses (s : State) (a : Addr) (v : Byte) : s.Accesses [.write a v] (s.memWrite a v) :=
  ⟨rfl, rfl⟩

theorem State.push8_accesses (s : State) (v : Byte) : s.Accesses [.write (s.cpu.sp - 1) v] (s.push8 v) :=
  ⟨rfl, rfl⟩

theorem State.push16_accesses (s : State) (v : Addr) :
    s.Accesses [.write (s.cpu.sp - 1) (highByte v), .write (s.cpu.sp - 2) (lowByte v)] (s.push16 v) := by
  rw [State.push16_eq]; exact ⟨rfl, rfl⟩

theorem State.enterTrap_accesses (s : State) (vector ret : Addr) :
    s.Accesses
      [.write (s.cpu.sp - 1) (highByte ret), .write (s.cpu.sp - 2) (lowByte ret), .write (s.cpu.sp - 3) s.flags]
      (s.enterTrap vector ret) := by
  rw [State.enterTrap_eq]; exact ⟨rfl, rfl⟩

theorem State.pop8_accesses (s : State) : s.Accesses [.read s.cpu.sp (s.bus.answer s.cpu.sp)] s.pop8.2 :=
  ⟨rfl, by simp [Bus.replay, State.pop8_eq]⟩

theorem State.pop16_accesses (s : State) :
    s.Accesses
      [.read s.cpu.sp (s.bus.answer s.cpu.sp),
       .read (s.cpu.sp + 1) ((s.bus.afterRead s.cpu.sp).answer (s.cpu.sp + 1))]
      s.pop16.2 := by
  rw [State.pop16_eq]; exact ⟨rfl, by simp [Bus.replay]⟩

theorem State.returnFromTrap_accesses (s : State) :
    s.Accesses
      [.read s.cpu.sp (s.bus.answer s.cpu.sp),
       .read (s.cpu.sp + 1) ((s.bus.afterRead s.cpu.sp).answer (s.cpu.sp + 1)),
       .read (s.cpu.sp + 2) (((s.bus.afterRead s.cpu.sp).afterRead (s.cpu.sp + 1)).answer (s.cpu.sp + 2))]
      s.returnFromTrap := by
  rw [State.returnFromTrap_eq]; exact ⟨rfl, by simp [Bus.replay]⟩

/-- An update of registers, flags, PC and cycles after the accesses does not count. -/
theorem State.Accesses.quietly {s t u : State} {events : List BusEvent} (h : s.Accesses events t)
    (htrace : u.obs.trace = t.obs.trace) (hbus : u.bus = t.bus) : s.Accesses events u :=
  ⟨htrace.trans h.trace, by rw [hbus]; exact h.replay⟩

/-- Every instruction makes the data accesses of the access table, in order, and no other (20_memory.md R80, R81). -/
theorem State.after_accesses (s : State) (i : Instr) :
    ∃ events, s.Accesses events (s.after i) ∧ events.map BusEvent.access = dataAccesses s i := by
  rcases hb : branchOf i with _ | ⟨c, rel⟩
  · cases i
    case ld r abs => exact ⟨_, (s.memRead_accesses abs).quietly rfl rfl, rfl⟩
    case ldx r => exact ⟨_, (s.memRead_accesses s.pointer).quietly rfl rfl, rfl⟩
    case st r abs => exact ⟨_, (s.memWrite_accesses abs (s.reg r)).quietly rfl rfl, rfl⟩
    case stx r => exact ⟨_, (s.memWrite_accesses s.pointer (s.reg r)).quietly rfl rfl, rfl⟩
    case push p => exact ⟨_, (s.push16_accesses (s.pair p)).quietly rfl rfl, rfl⟩
    case pushf => exact ⟨_, (s.push8_accesses s.flags).quietly rfl rfl, rfl⟩
    case call | calli => exact ⟨_, (s.push16_accesses s.cpu.pc).quietly rfl rfl, rfl⟩
    case swi => exact ⟨_, (s.enterTrap_accesses swiEntry s.cpu.pc).quietly rfl rfl, rfl⟩
    case pop | ret => exact ⟨_, s.pop16_accesses.quietly rfl rfl, rfl⟩
    case popf => exact ⟨_, s.pop8_accesses.quietly rfl rfl, rfl⟩
    case reti => exact ⟨_, s.returnFromTrap_accesses.quietly rfl rfl, rfl⟩
    all_goals cases hb <;> exact ⟨[], .none rfl rfl, rfl⟩
  · have hnone : dataAccesses s i = [] := by cases i <;> cases hb <;> rfl
    rw [State.after_branch hb, hnone]
    exact ⟨[], .none rfl rfl, rfl⟩

theorem State.after_memByte {s : State} {i : Instr} {x : Addr} (h : Access.write x ∉ dataAccesses s i) :
    (s.after i).memByte x = s.memByte x := by
  obtain ⟨events, haccesses, hmap⟩ := s.after_accesses i
  exact Bus.replay_byteAt_other haccesses.replay (hmap ▸ h)

end Sys2Proof.Machine
end

section
/-! SUPPORT. What a step can do: the four cases of 60_exceptions.md R290, R293, and the fetch of an instruction in closed
form. -/

namespace Sys2Proof.Machine

/-! ## The instruction a step executes -/

/-- The fetch of a step that executes an instruction. -/
def State.fetched (s : State) : Fetched := s.clearObs.fetch

/-- The bytes of the instruction at PC, as the bus answers them (30_encoding.md R100, R114). -/
def State.code (s : State) : List Byte := [s.fetched.op, s.fetched.b1, s.fetched.b2].take (instrLen s.fetched.op)

/-- The instruction at PC. -/
def State.nextInstr (s : State) : Instr := decodeOp s.fetched.op s.fetched.b1 s.fetched.b2

/-- The state in which its effect begins (60_exceptions.md R290). -/
def State.execStart (s : State) : State := s.fetched.state.beginExec s.fetched.op

/-- The state after it. -/
def State.executed (s : State) : State := s.execStart.after s.nextInstr

/-- What a step from `s` that answers `t` has done (60_exceptions.md R290, R293). -/
inductive StepCase (s : State) : State → Prop where
  | acknowledge (accepts : s.cpu.accepts = true) : StepCase s s.clearObs.acknowledge
  | wake (accepts : s.cpu.accepts = false) (halted : s.cpu.halted = true) (irq : s.cpu.irq = true) :
      StepCase s s.clearObs.wake
  | idle (accepts : s.cpu.accepts = false) (halted : s.cpu.halted = true) (irq : s.cpu.irq = false) :
      StepCase s s.clearObs.idle
  | execute (accepts : s.cpu.accepts = false) (halted : s.cpu.halted = false) : StepCase s s.executed

section
variable {s : State} (hv : s.cpu.variant = ref8Tag)
include hv

theorem step_acknowledges (ha : s.cpu.accepts = true) : step s = .next s.clearObs.acknowledge := by
  cases hh : s.cpu.halted <;> simp [step, State.plan, Cpu.refusal_ref8 hv, State.planRef8, State.haltedStep, ha, hh]

theorem step_wakes (ha : s.cpu.accepts = false) (hh : s.cpu.halted = true) (hi : s.cpu.irq = true) :
    step s = .next s.clearObs.wake := by
  simp [step, State.plan, Cpu.refusal_ref8 hv, State.planRef8, State.haltedStep, ha, hh, hi]

theorem step_idles (ha : s.cpu.accepts = false) (hh : s.cpu.halted = true) (hi : s.cpu.irq = false) :
    step s = .next s.clearObs.idle := by
  simp [step, State.plan, Cpu.refusal_ref8 hv, State.planRef8, State.haltedStep, ha, hh, hi]

theorem step_executes (ha : s.cpu.accepts = false) (hh : s.cpu.halted = false) : step s = .next s.executed := by
  simp only [step, State.plan, Cpu.refusal_ref8 hv, State.planRef8, State.clearObs_cpu, ha, hh, Bool.false_eq_true,
    if_false, State.startInstr]
  exact exec_eq_after _ _

/-- A step of REF8 always answers (60_exceptions.md R287). -/
theorem exists_step : ∃ t, step s = .next t ∧ StepCase s t := by
  cases ha : s.cpu.accepts
  · cases hh : s.cpu.halted
    · exact ⟨_, step_executes hv ha hh, .execute ha hh⟩
    · cases hi : s.cpu.irq
      · exact ⟨_, step_idles hv ha hh hi, .idle ha hh hi⟩
      · exact ⟨_, step_wakes hv ha hh hi, .wake ha hh hi⟩
  · exact ⟨_, step_acknowledges hv ha, .acknowledge ha⟩

end

/-- A step answers with REF8 selected only (60_exceptions.md R308; log 7), and then it did one of the four things. -/
theorem step_inversion {s t : State} (h : step s = .next t) : s.cpu.variant = ref8Tag ∧ StepCase s t := by
  by_cases hv : s.cpu.variant = ref8Tag
  · obtain ⟨u, hu, hcase⟩ := exists_step hv
    rw [hu] at h
    cases h
    exact ⟨hv, hcase⟩
  · by_cases hn : s.cpu.variant = noVariantTag
    · rw [step, State.plan, Cpu.refusal_preLoad hn] at h
      cases h
    · rw [step, State.plan, Cpu.refusal_console hv hn] at h
      cases h

/-! ## Fetch in closed form (30_encoding.md R114) -/

theorem instrLen_cases (op : Byte) : instrLen op = 1 ∨ instrLen op = 2 ∨ instrLen op = 3 := by
  simp only [instrLen]
  split
  · exact .inr (.inl rfl)
  · split
    · exact .inr (.inr rfl)
    · exact .inl rfl

@[simp] theorem State.fetched_op (s : State) : s.fetched.op = s.bus.answer s.cpu.pc := rfl

/-- What the fetch of an instruction of each length reads, and that it leaves the other operand bytes 0x00. -/
theorem State.fetched_cases (s : State) :
    (instrLen (s.bus.answer s.cpu.pc) = 1 ∧ s.fetched.b1 = 0x00 ∧ s.fetched.b2 = 0x00 ∧
      s.fetched.state = (s.clearObs.memRead s.cpu.pc).2.setPC (s.cpu.pc + 1)) ∨
    (instrLen (s.bus.answer s.cpu.pc) = 2 ∧ s.fetched.b1 = (s.bus.afterRead s.cpu.pc).answer (s.cpu.pc + 1) ∧
      s.fetched.b2 = 0x00 ∧
      s.fetched.state = ((s.clearObs.memRead s.cpu.pc).2.memRead (s.cpu.pc + 1)).2.setPC (s.cpu.pc + 2)) ∨
    (instrLen (s.bus.answer s.cpu.pc) = 3 ∧ s.fetched.b1 = (s.bus.afterRead s.cpu.pc).answer (s.cpu.pc + 1) ∧
      s.fetched.b2 = ((s.bus.afterRead s.cpu.pc).afterRead (s.cpu.pc + 1)).answer (s.cpu.pc + 2) ∧
      s.fetched.state =
        (((s.clearObs.memRead s.cpu.pc).2.memRead (s.cpu.pc + 1)).2.memRead (s.cpu.pc + 2)).2.setPC (s.cpu.pc + 3)) := by
  rcases instrLen_cases (s.bus.answer s.cpu.pc) with h | h | h
  · exact .inl (by simp [State.fetched, State.fetch, State.readIf, h])
  · exact .inr (.inl (by simp [State.fetched, State.fetch, State.readIf, h]))
  · exact .inr (.inr (by simp [State.fetched, State.fetch, State.readIf, h]))

theorem State.code_length (s : State) : s.code.length = instrLen (s.bus.answer s.cpu.pc) := by
  rcases instrLen_cases (s.bus.answer s.cpu.pc) with h | h | h <;> simp [State.code, h]

/-- The fetch reads the instruction's bytes at PC and the addresses after it, and uses the bus in no other way. -/
theorem State.execStart_accesses (s : State) :
    s.clearObs.Accesses (s.code.mapIdx fun k v => .read (s.cpu.pc + BitVec.ofNat 16 k) v) s.execStart := by
  have h0 := s.clearObs.memRead_accesses s.cpu.pc
  have h1 := h0.trans ((s.clearObs.memRead s.cpu.pc).2.memRead_accesses (s.cpu.pc + 1))
  have h2 := h1.trans (((s.clearObs.memRead s.cpu.pc).2.memRead (s.cpu.pc + 1)).2.memRead_accesses (s.cpu.pc + 2))
  have hstart : s.execStart.obs.trace = s.fetched.state.obs.trace ∧ s.execStart.bus = s.fetched.state.bus := ⟨rfl, rfl⟩
  rcases s.fetched_cases with ⟨hn, -, -, hs⟩ | ⟨hn, hb1, -, hs⟩ | ⟨hn, hb1, hb2, hs⟩
  · rw [hs] at hstart
    simpa [State.code, hn] using h0.quietly hstart.1 hstart.2
  · rw [hs] at hstart
    simpa [State.code, hn, hb1] using h1.quietly hstart.1 hstart.2
  · rw [hs] at hstart
    simpa [State.code, hn, hb1, hb2] using h2.quietly hstart.1 hstart.2

/-- The effect begins with PC at the next instruction and IES cleared, and nothing else of the CPU record changed. -/
theorem State.execStart_cpu (s : State) :
    s.execStart.cpu = { s.cpu with pc := s.cpu.pc + BitVec.ofNat 16 s.code.length, ies := false } := by
  rw [State.code_length]
  simp only [State.execStart, State.beginExec, State.setIES, State.setKind, State.fetched, State.fetch_cpu]
  rfl

/-- The list decoder reads the bytes fetched as the instruction executed (30_encoding.md R113). -/
theorem State.decode_code (s : State) : decode s.code = .ok (s.nextInstr, []) := by
  rcases s.fetched_cases with ⟨hn, h1, h2, -⟩ | ⟨hn, -, h2, -⟩ | ⟨hn, -, -, -⟩
  · simp [State.code, State.nextInstr, decode, hn, h1, h2]
  · simp [State.code, State.nextInstr, decode, hn, h2]
  · simp [State.code, State.nextInstr, decode, hn]

end Sys2Proof.Machine
end

section
/-! SUPPORT. The opcode byte of a decoded instruction (30_encoding.md R110, R113). -/

namespace Sys2Proof.Machine

/-- The operand bytes do not enter the choice of the instruction's row. -/
theorem opcodeOf_decodeOp_operands (op b1 b2 : Byte) : opcodeOf (decodeOp op b1 b2) = opcodeOf (decodeOp op 0 0) := by
  simp only [decodeOp]
  split
  · simp only [decodeGroup0]
    split
    case h_7 => simp only [decodePairs]; split <;> rfl
    case h_8 => simp only [decodePointer]; split <;> rfl
    all_goals rfl
  · rfl
  · rfl
  · simp only [decodeGroup3]
    split
    case h_1 => simp only [decodeAluImm]; split <;> rfl
    case h_2 => simp only [decodeBranch]; split <;> rfl
    case h_7 => simp only [decodeTransfer]; split <;> rfl
    all_goals rfl

/-- Every opcode byte is the opcode byte of the instruction it decodes to. -/
theorem opcodeOf_decodeOp (op b1 b2 : Byte) : opcodeOf (decodeOp op b1 b2) = op := by
  rw [opcodeOf_decodeOp_operands]
  revert op
  decide

/-- EI is decoded from its opcode byte 0x03 and from no other (43_system.md R263). -/
theorem decodeOp_eq_ei_iff (op b1 b2 : Byte) : decodeOp op b1 b2 = .ei ↔ op = 0x03 := by
  constructor
  · intro h
    rw [← opcodeOf_decodeOp op b1 b2, h]
    rfl
  · rintro rfl
    rfl

end Sys2Proof.Machine
end

section
/-! SUPPORT. The claims about every state of a run: the invariant (10_state.md R37, R47; 60_exceptions.md R290), the writer
tables (10_state.md R33, R38 to R44), the EI shadow (10_state.md R43) and reset (10_state.md R50). -/

namespace Sys2Proof.Machine

/-! ## An executed instruction -/

/-- The step record says which opcode byte was executed (60_exceptions.md R307). -/
theorem State.executed_kind (s : State) : s.executed.obs.kind = some (.exec (s.bus.answer s.cpu.pc)) := by
  obtain ⟨-, -, hkind⟩ := s.execStart.after_fixed s.nextInstr
  rw [State.executed, hkind]
  rfl

/-- An executed instruction makes the reads of its fetch and then those of the access table (20_memory.md R80, R81). -/
theorem State.executed_accesses (s : State) :
    ∃ events, events.map BusEvent.access = dataAccesses s.execStart s.nextInstr ∧
      s.clearObs.Accesses ((s.code.mapIdx fun k v => .read (s.cpu.pc + BitVec.ofNat 16 k) v) ++ events) s.executed := by
  obtain ⟨events, haccesses, hmap⟩ := s.execStart.after_accesses s.nextInstr
  exact ⟨events, hmap, s.execStart_accesses.trans haccesses⟩

theorem State.code_eq_cons (s : State) : ∃ rest, s.code = s.bus.answer s.cpu.pc :: rest := by
  rcases instrLen_cases (s.bus.answer s.cpu.pc) with h | h | h <;> simp [State.code, h]

/-- The first access of an executed instruction is the read of its opcode byte at PC. -/
theorem State.executed_trace_head (s : State) :
    s.executed.obs.trace.head? = some (.read s.cpu.pc (s.bus.answer s.cpu.pc)) := by
  obtain ⟨events, -, haccesses⟩ := s.executed_accesses
  obtain ⟨rest, hcode⟩ := s.code_eq_cons
  rw [haccesses.trace, hcode]
  simp [StepObs.empty]

theorem State.execStart_ies (s : State) : s.execStart.cpu.ies = false := by rw [State.execStart_cpu]

theorem State.nextInstr_eq_ei_iff (s : State) : s.nextInstr = .ei ↔ s.bus.answer s.cpu.pc = 0x03 :=
  decodeOp_eq_ei_iff _ _ _

theorem writesIES_iff (i : Instr) : writesIES i = true ↔ i = .di ∨ i = .ei ∨ i = .swi := by
  constructor
  · intro h
    cases i <;> cases h <;> simp
  · rintro (rfl | rfl | rfl) <;> rfl

/-- Only EI sets IES, and it leaves it set (10_state.md R43). -/
theorem State.after_ies_iff {s : State} (h : s.cpu.ies = false) (i : Instr) : (s.after i).cpu.ies = true ↔ i = .ei := by
  cases hw : writesIES i
  · rw [State.after_ies hw, h]
    simp only [Bool.false_eq_true, false_iff]
    rintro rfl
    cases hw
  · rcases (writesIES_iff i).mp hw with rfl | rfl | rfl
    · exact ⟨nofun, nofun⟩
    · exact ⟨fun _ => rfl, fun _ => rfl⟩
    · exact ⟨nofun, nofun⟩

/-- An executed instruction leaves IES set exactly if it is EI. -/
theorem State.executed_ies_iff (s : State) : s.executed.cpu.ies = true ↔ s.bus.answer s.cpu.pc = 0x03 := by
  rw [← State.nextInstr_eq_ei_iff]
  exact State.after_ies_iff s.execStart_ies _

/-! ## What every step keeps -/

/-- The accesses of an acknowledge are those of trap entry (60_exceptions.md R291, R292). -/
theorem State.acknowledge_accesses (s : State) :
    s.Accesses
      [.write (s.cpu.sp - 1) (highByte s.cpu.pc), .write (s.cpu.sp - 2) (lowByte s.cpu.pc),
       .write (s.cpu.sp - 3) s.flags]
      s.acknowledge :=
  (s.enterTrap_accesses irqEntry s.cpu.pc).quietly rfl rfl

/-- A step uses the bus by the accesses of its trace and in no other way (20_memory.md R70, R91). -/
theorem StepCase.accesses {s t : State} (h : StepCase s t) : ∃ events, s.clearObs.Accesses events t := by
  cases h with
  | acknowledge => exact ⟨_, s.clearObs.acknowledge_accesses⟩
  | wake => exact ⟨[], .none rfl rfl⟩
  | idle => exact ⟨[], .none rfl rfl⟩
  | execute =>
    obtain ⟨events, -, haccesses⟩ := s.executed_accesses
    exact ⟨_, haccesses⟩

theorem StepCase.replay {s t : State} (h : StepCase s t) : s.bus.replay t.obs.trace = some t.bus := by
  obtain ⟨events, haccesses⟩ := h.accesses
  rw [haccesses.trace]
  exact haccesses.replay

/-- No step writes the interrupt input latch, the tag or the region map (10_state.md R45, R47; log 1). -/
theorem StepCase.fixed {s t : State} (h : StepCase s t) :
    t.cpu.irq = s.cpu.irq ∧ t.cpu.variant = s.cpu.variant ∧ t.bus.regions = s.bus.regions := by
  have hregions := Bus.replay_regions h.replay
  cases h with
  | acknowledge => exact ⟨rfl, rfl, hregions⟩
  | wake => exact ⟨rfl, rfl, hregions⟩
  | idle => exact ⟨rfl, rfl, hregions⟩
  | execute =>
    obtain ⟨hirq, hvariant, -⟩ := s.execStart.after_fixed s.nextInstr
    rw [State.execStart_cpu] at hirq hvariant
    exact ⟨hirq, hvariant, hregions⟩

/-- Bits 7..4 of F stay clear (10_state.md R37). -/
theorem StepCase.f_clear {s t : State} (h : StepCase s t) (hf : s.cpu.f &&& 0xF0 = 0x00) : t.cpu.f &&& 0xF0 = 0x00 := by
  cases h with
  | acknowledge => exact hf
  | wake => exact hf
  | idle => exact hf
  | execute =>
    refine State.after_f_clear ?_ s.nextInstr
    rw [State.execStart_cpu]
    exact hf

/-- An instruction begins with neither HALTED nor IES set, and EI, the only one that sets IES, does not halt
(60_exceptions.md R290). -/
theorem StepCase.not_halted_and_ies {s t : State} (h : StepCase s t)
    (hs : ¬(s.cpu.halted = true ∧ s.cpu.ies = true)) : ¬(t.cpu.halted = true ∧ t.cpu.ies = true) := by
  cases h with
  | acknowledge => exact fun ht => Bool.false_ne_true ht.1
  | wake => exact fun ht => Bool.false_ne_true ht.1
  | idle => exact hs
  | execute _ hhalted =>
    rintro ⟨hthalted, hies⟩
    have hei : s.nextInstr = .ei := (State.after_ies_iff s.execStart_ies _).mp hies
    rw [State.executed, hei, State.after_halted rfl, State.execStart_cpu, hhalted] at hthalted
    cases hthalted

/-- A step costs 1 to 16 cycles, and CYC counts them (60_exceptions.md R280, R302; 10_state.md R46). -/
theorem StepCase.cycles {s t : State} (h : StepCase s t) :
    1 ≤ t.obs.cycles ∧ t.obs.cycles ≤ 16 ∧ t.cpu.cyc = s.cpu.cyc + BitVec.ofNat 64 t.obs.cycles := by
  cases h with
  | acknowledge => exact ⟨Nat.le_of_ble_eq_true rfl, Nat.le_of_ble_eq_true rfl, rfl⟩
  | wake => exact ⟨Nat.le_of_ble_eq_true rfl, Nat.le_of_ble_eq_true rfl, rfl⟩
  | idle => exact ⟨Nat.le_of_ble_eq_true rfl, Nat.le_of_ble_eq_true rfl, rfl⟩
  | execute =>
    have h := s.execStart.after_cycles s.nextInstr
    rw [State.execStart_cpu] at h
    exact h

/-! ## The invariant -/

/-- Settles O41, part by part over the four things a step can do. -/
theorem stepKeepsInvariant : Obligations.StepKeepsInvariant := by
  unfold Obligations.StepKeepsInvariant
  intro s t hinv hstep
  obtain ⟨hvariant, hf, hlatches, hmem⟩ := hinv
  obtain ⟨-, hcase⟩ := step_inversion hstep
  obtain ⟨-, hkept, -⟩ := hcase.fixed
  exact ⟨hkept.trans hvariant, hcase.f_clear hf, hcase.not_halted_and_ies hlatches,
    Bus.replay_wf hcase.replay hmem⟩

/-- Settles O42: every field of the reset state is given. -/
theorem resetMeetsInvariant : Obligations.ResetMeetsInvariant := by
  unfold Obligations.ResetMeetsInvariant
  exact ⟨rfl, rfl, fun h => Bool.false_ne_true h.1, .nil, fun c hc => absurd hc (List.not_mem_nil)⟩

/-! ## The writer tables -/

/-- Settles O46, by the frame of each field over all instructions. -/
theorem writerTableHolds : Obligations.WriterTableHolds := by
  unfold Obligations.WriterTableHolds
  intro i s t h
  rw [exec_eq_next_iff] at h
  subst h
  obtain ⟨hirq, hvariant, -⟩ := s.after_fixed i
  exact ⟨fun r hr => State.after_reg hr s, fun h => State.after_sp h s, fun h => State.after_pc h s,
    fun h => State.after_flagC h s, fun h => State.after_flagV h s, fun h => State.after_flagZ h s,
    fun h => State.after_flagS h s, fun h => State.after_ie h s, fun h => State.after_ies h s,
    fun h => State.after_halted h s, hirq, hvariant, fun x hx => State.after_memByte hx⟩

/-! ## The EI shadow -/

theorem Cpu.accepts_of_ies {c : Cpu} (h : c.ies = true) : c.accepts = false := by
  simp [Cpu.accepts, h]

theorem Cpu.accepts_of_ie {c : Cpu} (h : c.ie = false) : c.accepts = false := by
  simp [Cpu.accepts, h]

theorem State.interrupt_ref8 {s : State} (h : s.cpu.variant = ref8Tag) (level : Bool) :
    s.interrupt level = .next (s.setIRQ level) := by
  simp only [State.interrupt, Cpu.refusal_ref8 h]
  rfl

/-- Settles O49: EI leaves IES set, and a step with IES set is not accepted. -/
theorem eiShadowHolds : Obligations.EiShadowHolds := by
  unfold Obligations.EiShadowHolds
  intro s t hstep hkind
  obtain ⟨hvariant, hcase⟩ := step_inversion hstep
  obtain ⟨-, hkept, -⟩ := hcase.fixed
  cases hcase with
  | acknowledge => cases hkind
  | wake => cases hkind
  | idle => cases hkind
  | execute _ hhalted =>
    have hop : s.bus.answer s.cpu.pc = 0x03 := by
      rw [State.executed_kind] at hkind
      injection hkind with hkind
      injection hkind
    have hei : s.executed = s.execStart.after .ei := by
      rw [State.executed, s.nextInstr_eq_ei_iff.mpr hop]
    have hies := s.executed_ies_iff.mpr hop
    have hvariant' : s.executed.cpu.variant = ref8Tag := hkept.trans hvariant
    have hhalted' : s.executed.cpu.halted = false := by
      rw [hei, State.after_halted rfl, State.execStart_cpu]; exact hhalted
    refine ⟨by rw [hei]; rfl, hies, fun level => ?_⟩
    exact ⟨_, _, _, State.interrupt_ref8 hvariant' level,
      step_executes hvariant' (Cpu.accepts_of_ies hies) hhalted', State.executed_kind _, State.executed_ies_iff _⟩

/-! ## Reset -/

/-- Settles O56: reset clears IE and HALTED, so the step after it fetches, and PC is 0x0000. -/
theorem resetEffect : Obligations.ResetEffect := by
  unfold Obligations.ResetEffect
  have hreset : ∀ s : State, s.cpu.variant = ref8Tag →
      s.hostReset = .next { s with cpu := Cpu.resetTo ref8Tag } := by
    intro s h
    simp only [State.hostReset, Cpu.refusal_ref8 h, Cpu.reset, h]
  refine ⟨hreset, fun s h => ?_, fun s level h => ?_⟩
  · simp only [State.hostReset, Cpu.refusal_preLoad h]
  · exact ⟨_, _, _, _, hreset s h, State.interrupt_ref8 rfl level, step_executes rfl (Cpu.accepts_of_ie rfl) rfl,
      State.executed_kind _, State.executed_trace_head _⟩

end Sys2Proof.Machine
end

section
/-! SUPPORT. The image of REF8: its 24 bytes, the checks of deserialize, and that the two undo each other (10_state.md R63 to
R65). -/

namespace Sys2Proof.Machine

/-! ## The bytes of an image (10_state.md R63) -/

theorem regs_toList (v : Vector Byte 8) : v.toList = [v[0], v[1], v[2], v[3], v[4], v[5], v[6], v[7]] := by
  refine List.ext_getElem (by simp) fun k hk _ => ?_
  rw [Vector.length_toList] at hk
  interval_cases k <;> simp

theorem Cpu.serialize_eq (c : Cpu) : c.serialize =
    [ref8Tag, imageVersion, c.regs[0], c.regs[1], c.regs[2], c.regs[3], c.regs[4], c.regs[5], c.regs[6], c.regs[7],
     maskFlags c.f, lowByte c.sp, highByte c.sp, lowByte c.pc, highByte c.pc, statusByte c] ++ cycBytes c.cyc := by
  rw [Cpu.serialize, regs_toList]
  rfl

theorem Cpu.serialize_length (c : Cpu) : c.serialize.length = 24 := by rw [Cpu.serialize_eq]; rfl

theorem imageByte_serialize_reg (c : Cpu) (r : RegIdx) : imageByte c.serialize (2 + r.val) = c.regs[r.val] := by
  rw [Cpu.serialize_eq]
  fin_cases r <;> rfl

theorem getElem?_eq_imageByte {b : List Byte} {k : Nat} (h : k < b.length) : b[k]? = some (imageByte b k) := by
  rw [imageByte, List.getD_eq_getElem _ _ h, List.getElem?_eq_getElem h]

/-- A list of 24 bytes is its bytes. -/
theorem ofFn_imageByte {b : List Byte} (h : b.length = 24) : List.ofFn (fun k : Fin 24 => imageByte b k.val) = b := by
  refine List.ext_getElem (by simp [h]) fun k _ hk => ?_
  rw [List.getElem_ofFn, imageByte, List.getD_eq_getElem _ _ hk]

/-! ## Words, the status byte and CYC -/

theorem word16_toNat (v : Addr) : (lowByte v).toNat + 256 * (highByte v).toNat = v.toNat := by
  simp only [lowByte, highByte, BitVec.extractLsb'_toNat]
  omega

theorem statusByte_toNat (c : Cpu) :
    (statusByte c).toNat = c.ie.toNat + 2 * c.ies.toNat + 4 * c.halted.toNat + 8 * c.irq.toNat := by
  have hie := Bool.toNat_le c.ie
  have hies := Bool.toNat_le c.ies
  have hhalted := Bool.toNat_le c.halted
  have hirq := Bool.toNat_le c.irq
  rw [statusByte, BitVec.toNat_ofNat]
  omega

/-- Bits 0 to 3 of the status byte are IE, IES, HALTED, IRQ, and bits 7..4 are clear. -/
theorem statusByte_bits (c : Cpu) :
    statusByte c &&& 0xF0 = 0x00 ∧ (statusByte c).getLsbD 0 = c.ie ∧ (statusByte c).getLsbD 1 = c.ies ∧
      (statusByte c).getLsbD 2 = c.halted ∧ (statusByte c).getLsbD 3 = c.irq := by
  unfold statusByte
  cases c.ie <;> cases c.ies <;> cases c.halted <;> cases c.irq <;> decide

/-- A byte with bits 7..4 clear is the status byte of its four low bits. -/
theorem status_of_bits (v : Byte) (h : v &&& 0xF0 = 0x00) :
    BitVec.ofNat 8 ((v.getLsbD 0).toNat + 2 * (v.getLsbD 1).toNat + 4 * (v.getLsbD 2).toNat + 8 * (v.getLsbD 3).toNat)
      = v := by
  revert v
  decide

theorem cycBytes_toNat (v : BitVec 64) {k : Nat} (h : k < 8) :
    ((cycBytes v)[k]'h).toNat = v.toNat / 256 ^ k % 256 := by
  interval_cases k <;> simp [cycBytes, BitVec.extractLsb'_toNat, Nat.shiftRight_eq_div_pow]

theorem toNat_append_byte {n : Nat} (x : Byte) (y : BitVec n) : (x ++ y).toNat = y.toNat + 2 ^ n * x.toNat := by
  rw [BitVec.toNat_append, Nat.shiftLeft_eq, Nat.mul_comm, ← Nat.two_pow_add_eq_or_of_lt y.isLt, Nat.add_comm]

theorem imageCyc_toNat (b : List Byte) : (imageCyc b).toNat =
    (imageByte b 16).toNat + 2 ^ 8 * (imageByte b 17).toNat + 2 ^ 16 * (imageByte b 18).toNat +
      2 ^ 24 * (imageByte b 19).toNat + 2 ^ 32 * (imageByte b 20).toNat + 2 ^ 40 * (imageByte b 21).toNat +
      2 ^ 48 * (imageByte b 22).toNat + 2 ^ 56 * (imageByte b 23).toNat := by
  refine (toNat_append_byte (n := 56) _ _).trans ?_
  simp only [toNat_append_byte]

theorem cyc_imageByte_serialize (c : Cpu) {k : Nat} (h : k < 8) :
    (imageByte c.serialize (16 + k)).toNat = c.cyc.toNat / 256 ^ k % 256 := by
  rw [← cycBytes_toNat c.cyc h, Cpu.serialize_eq]
  interval_cases k <;> rfl

/-- CYC is put together from its bytes. -/
theorem imageCyc_serialize (c : Cpu) : imageCyc c.serialize = c.cyc := by
  have hlt := c.cyc.isLt
  have hcyc := imageCyc_toNat c.serialize
  have hbyte := fun k (h : k < 8) => cyc_imageByte_serialize c h
  have h0 := hbyte 0 (by omega)
  have h1 := hbyte 1 (by omega)
  have h2 := hbyte 2 (by omega)
  have h3 := hbyte 3 (by omega)
  have h4 := hbyte 4 (by omega)
  have h5 := hbyte 5 (by omega)
  have h6 := hbyte 6 (by omega)
  have h7 := hbyte 7 (by omega)
  simp only [Nat.reduceAdd, Nat.reducePow] at h0 h1 h2 h3 h4 h5 h6 h7 hcyc
  apply BitVec.eq_of_toNat_eq
  omega

/-- The bytes of CYC are those it was put together from. -/
theorem cycBytes_imageCyc (b : List Byte) : cycBytes (imageCyc b) =
    [imageByte b 16, imageByte b 17, imageByte b 18, imageByte b 19, imageByte b 20, imageByte b 21, imageByte b 22,
     imageByte b 23] := by
  have h := imageCyc_toNat b
  have hb : ∀ k, (imageByte b k).toNat < 256 := fun k => (imageByte b k).isLt
  have := hb 16
  have := hb 17
  have := hb 18
  have := hb 19
  have := hb 20
  have := hb 21
  have := hb 22
  have := hb 23
  simp only [cycBytes, List.cons.injEq, ← BitVec.toNat_inj, BitVec.extractLsb'_toNat, Nat.shiftRight_eq_div_pow, and_true]
  omega

/-! ## deserialize and serialize undo each other (10_state.md R62, R65) -/

theorem imageCpu_serialize {c : Cpu} (hv : c.variant = ref8Tag) (hf : c.f &&& 0xF0 = 0x00) :
    imageCpu c.serialize = c := by
  have hregs : Vector.ofFn (fun r : Fin 8 => imageByte c.serialize (2 + r.val)) = c.regs :=
    Vector.ext fun k hk => by rw [Vector.getElem_ofFn, imageByte_serialize_reg c ⟨k, hk⟩]
  have hcyc := imageCyc_serialize c
  obtain ⟨-, hie, hies, hhalted, hirq⟩ := statusByte_bits c
  have hbytes : imageByte c.serialize 10 = c.f ∧ imageByte c.serialize 11 = lowByte c.sp ∧
      imageByte c.serialize 12 = highByte c.sp ∧ imageByte c.serialize 13 = lowByte c.pc ∧
      imageByte c.serialize 14 = highByte c.pc ∧ imageByte c.serialize 15 = statusByte c := by
    rw [Cpu.serialize_eq, maskFlags_of_clear _ hf]
    exact ⟨rfl, rfl, rfl, rfl, rfl, rfl⟩
  obtain ⟨h10, h11, h12, h13, h14, h15⟩ := hbytes
  simp only [imageCpu, hregs, hcyc, h10, h11, h12, h13, h14, h15, hie, hies, hhalted, hirq, word16_halves, ← hv]

/-- An image that passes the checks is the image of the state it holds. -/
theorem serialize_imageCpu {b : List Byte} (hlen : b.length = 24) (h0 : imageByte b 0 = ref8Tag)
    (h1 : imageByte b 1 = imageVersion) (h10 : imageByte b 10 &&& 0xF0 = 0x00) (h15 : imageByte b 15 &&& 0xF0 = 0x00) :
    (imageCpu b).serialize = b := by
  have hstatus : statusByte (imageCpu b) = imageByte b 15 := status_of_bits _ h15
  have hf : maskFlags (imageCpu b).f = imageByte b 10 := maskFlags_of_clear _ h10
  have hcyc : cycBytes (imageCpu b).cyc = _ := cycBytes_imageCyc b
  rw [Cpu.serialize_eq, hstatus, hf, hcyc]
  simp only [imageCpu, lowByte_word16, highByte_word16, Vector.getElem_ofFn, ← h0, ← h1]
  exact ofFn_imageByte hlen

/-! ## The checks (10_state.md R64) -/

theorem ref8VersionTag_eq_some_iff {b : List Byte} {v : Nat} :
    ref8VersionTag b = some v ↔ b.length = imageLength ∧ imageByte b 0 = ref8Tag ∧ (imageByte b 1).toNat = v := by
  unfold ref8VersionTag
  split
  · next h => rw [Option.some.injEq]; exact ⟨fun hv => ⟨h.1, h.2, hv⟩, fun h' => h'.2.2⟩
  · next h => exact ⟨nofun, fun h' => absurd ⟨h'.1, h'.2.1⟩ h⟩

theorem ref8VersionTag_eq_none_iff {b : List Byte} :
    ref8VersionTag b = none ↔ b.length ≠ imageLength ∨ imageByte b 0 ≠ ref8Tag := by
  rw [ref8VersionTag, ite_eq_right_iff, ← not_and_or]
  exact ⟨fun h h' => Option.some_ne_none _ (h h'), fun h h' => absurd h' h⟩

/-- Checks 1 and 2. -/
theorem deserialize_unframed {b : List Byte} (h : ref8VersionTag b = none) : Cpu.deserialize b = .error .corruptData := by
  rcases ref8VersionTag_eq_none_iff.mp h with hlen | h0
  · rw [Cpu.deserialize, if_pos hlen]
  · rw [Cpu.deserialize, if_pos h0, ite_self]

/-- Check 3. -/
theorem deserialize_newer {b : List Byte} {v : Nat} (h : ref8VersionTag b = some v) (hv : imageVersion.toNat < v) :
    Cpu.deserialize b = .error .versionMismatch := by
  obtain ⟨hlen, h0, rfl⟩ := ref8VersionTag_eq_some_iff.mp h
  rw [Cpu.deserialize, if_neg (not_not.mpr hlen), if_neg (not_not.mpr h0), if_pos hv]

theorem ref8StructureHolds_iff (b : List Byte) :
    ref8StructureHolds b = true ↔
      imageByte b 1 ≠ 0x00 ∧ imageByte b 10 &&& 0xF0 = 0x00 ∧ imageByte b 15 &&& 0xF0 = 0x00 := by
  simp only [ref8StructureHolds, Bool.and_eq_true, decide_eq_true_eq, and_assoc]

/-- Checks 4 to 6. -/
theorem deserialize_supported {b : List Byte} {v : Nat} (h : ref8VersionTag b = some v) (hv : v ≤ imageVersion.toNat) :
    Cpu.deserialize b = if ref8StructureHolds b then .ok (imageCpu b) else .error .corruptData := by
  obtain ⟨hlen, h0, rfl⟩ := ref8VersionTag_eq_some_iff.mp h
  rw [Cpu.deserialize, if_neg (not_not.mpr hlen), if_neg (not_not.mpr h0), if_neg (Nat.not_lt.mpr hv)]
  simp only [ref8StructureHolds_iff]
  by_cases h1 : imageByte b 1 = 0x00
  · rw [if_pos h1, if_neg fun h => h.1 h1]
  · by_cases h10 : imageByte b 10 &&& 0xF0 = 0x00
    · by_cases h15 : imageByte b 15 &&& 0xF0 = 0x00
      · rw [if_neg h1, if_neg (not_not.mpr h10), if_neg (not_not.mpr h15), if_pos ⟨h1, h10, h15⟩]
      · rw [if_neg h1, if_neg (not_not.mpr h10), if_pos h15, if_neg fun h => h15 h.2.2]
    · rw [if_neg h1, if_pos h10, if_neg fun h => h10 h.2.1]

/-- An image that passes every check is the image of the state it holds. -/
theorem serialize_imageCpu_of_structure {b : List Byte} {v : Nat} (h : ref8VersionTag b = some v)
    (hv : v ≤ imageVersion.toNat) (hs : ref8StructureHolds b = true) : (imageCpu b).serialize = b := by
  obtain ⟨hlen, h0, rfl⟩ := ref8VersionTag_eq_some_iff.mp h
  obtain ⟨h1, h10, h15⟩ := (ref8StructureHolds_iff b).mp hs
  refine serialize_imageCpu hlen h0 ?_ h10 h15
  have hpos : (imageByte b 1).toNat ≠ 0 := fun h => h1 (BitVec.eq_of_toNat_eq h)
  exact BitVec.eq_of_toNat_eq (Nat.le_antisymm hv (Nat.one_le_iff_ne_zero.mpr hpos))

theorem ref8VersionTag_serialize (c : Cpu) : ref8VersionTag c.serialize = some 1 := by
  rw [ref8VersionTag_eq_some_iff, Cpu.serialize_eq]
  exact ⟨rfl, rfl, rfl⟩

theorem ref8StructureHolds_serialize (c : Cpu) : ref8StructureHolds c.serialize = true := by
  have hversion : imageVersion ≠ 0x00 := by decide
  rw [ref8StructureHolds_iff, Cpu.serialize_eq]
  exact ⟨hversion, maskFlags_high c.f, (statusByte_bits c).1⟩

theorem deserialize_serialize {c : Cpu} (hv : c.variant = ref8Tag) (hf : c.f &&& 0xF0 = 0x00) :
    Cpu.deserialize c.serialize = .ok c := by
  rw [deserialize_supported (ref8VersionTag_serialize c) (Nat.le_refl 1), if_pos (ref8StructureHolds_serialize c),
    imageCpu_serialize hv hf]

/-- Settles O54: each byte of the layout is read off the image, and the checks pass. -/
theorem imageLayoutAndRoundTrip : Obligations.ImageLayoutAndRoundTrip := by
  unfold Obligations.ImageLayoutAndRoundTrip
  intro c hv hf
  refine ⟨⟨fun k => imageByte c.serialize k.val, (ofFn_imageByte c.serialize_length).symm, ?_⟩,
    deserialize_serialize hv hf⟩
  refine ⟨?_, ?_, imageByte_serialize_reg c, ?_, ?_, ?_, ?_, fun k => ?_⟩
  · rw [Cpu.serialize_eq]; rfl
  · rw [Cpu.serialize_eq]; rfl
  · rw [Cpu.serialize_eq]; exact maskFlags_of_clear _ hf
  · rw [Cpu.serialize_eq]; exact word16_toNat c.sp
  · rw [Cpu.serialize_eq]; exact word16_toNat c.pc
  · rw [Cpu.serialize_eq]; exact statusByte_toNat c
  · exact cyc_imageByte_serialize c k.isLt

/-- An image that fails one of checks 4 to 6. -/
theorem deserialize_invalid {b : List Byte} {v : Nat} (h : ref8VersionTag b = some v) (hv : v ≤ imageVersion.toNat)
    (hs : ¬(imageByte b 1 ≠ 0x00 ∧ imageByte b 10 &&& 0xF0 = 0x00 ∧ imageByte b 15 &&& 0xF0 = 0x00)) :
    Cpu.deserialize b = .error .corruptData := by
  rw [deserialize_supported h hv, if_neg (mt (ref8StructureHolds_iff b).mp hs)]

/-- Settles O55: the checks one by one, each by the lemma of its step. -/
theorem imageChecks : Obligations.ImageChecks := by
  unfold Obligations.ImageChecks
  intro b
  by_cases hlen : b.length = 24
  swap
  · rw [if_pos hlen]
    exact deserialize_unframed (ref8VersionTag_eq_none_iff.mpr (.inl hlen))
  have hfirst : b[0]? = some (imageByte b 0) := getElem?_eq_imageByte (by omega)
  have hsecond : b[1]? = some (imageByte b 1) := getElem?_eq_imageByte (by omega)
  have htag (h0 : b[0]? = some 0x01) : ref8VersionTag b = some (imageByte b 1).toNat :=
    ref8VersionTag_eq_some_iff.mpr ⟨hlen, Option.some.inj (hfirst.symm.trans h0), rfl⟩
  rw [if_neg (not_not.mpr hlen)]
  split_ifs with h0 hv h1 h10 h15
  · exact deserialize_unframed (ref8VersionTag_eq_none_iff.mpr (.inr fun h => h0 (hfirst.trans (congrArg some h))))
  · exact deserialize_newer (htag (not_not.mp h0)) hv
  · exact deserialize_invalid (htag (not_not.mp h0)) (Nat.not_lt.mp hv) fun h =>
      h.1 (Option.some.inj (hsecond.symm.trans h1))
  · exact deserialize_invalid (htag (not_not.mp h0)) (Nat.not_lt.mp hv) fun h => h10 h.2.1
  · exact deserialize_invalid (htag (not_not.mp h0)) (Nat.not_lt.mp hv) fun h => h15 h.2.2
  · have htag := htag (not_not.mp h0)
    have hv := Nat.not_lt.mp hv
    have hs := (ref8StructureHolds_iff b).mpr
      ⟨fun h => h1 (hsecond.trans (congrArg some h)), not_not.mp h10, not_not.mp h15⟩
    exact ⟨imageCpu b, by rw [deserialize_supported htag hv, if_pos hs], rfl, not_not.mp h10,
      serialize_imageCpu_of_structure htag hv hs⟩

end Sys2Proof.Machine
end

section
/-! SUPPORT. A step is a function of the CPU state and of the bytes the bus answers (60_exceptions.md R286): every operation
of the machine has this property, and operations run one after another keep it. -/

namespace Sys2Proof.Machine

/-! ## Traces that part at an answer -/

theorem PartAtAnswer.append {t u : List BusEvent} (h : PartAtAnswer t u) (x y : List BusEvent) :
    PartAtAnswer (t ++ x) (u ++ y) := by
  induction t generalizing u with
  | nil => cases h
  | cons e t ih =>
    cases u with
    | nil => cases e <;> cases h
    | cons e' u =>
      cases e <;> cases e'
      case read.read =>
        obtain ⟨ha, hv⟩ := h
        exact ⟨ha, hv.imp_right ih⟩
      case write.write =>
        obtain ⟨ha, hv, ht⟩ := h
        exact ⟨ha, hv, ih ht⟩
      case read.write => cases h
      case write.read => cases h

theorem partAtAnswer_of_read {v w : Byte} (h : v ≠ w) (l : List BusEvent) (a : Addr) :
    PartAtAnswer (l ++ [.read a v]) (l ++ [.read a w]) := by
  induction l with
  | nil => exact ⟨rfl, .inl h⟩
  | cons e l ih =>
    cases e with
    | read => exact ⟨rfl, .inr ih⟩
    | write => exact ⟨rfl, rfl, ih⟩

/-! ## Operations driven by the answers of the bus -/

/-- Two states that the CPU cannot tell apart before it reads: all but the bus is equal. -/
def State.Alike (s₁ s₂ : State) : Prop := s₁.cpu = s₂.cpu ∧ s₁.obs = s₂.obs

/-- From states that differ in their buses alone the operation gives one result and states that differ in their buses alone,
unless one of its reads is answered differently; and it only adds to the trace (60_exceptions.md R286). -/
structure AnswerDriven {α : Type} (op : State → α × State) : Prop where
  /-- It keeps what the trace holds. -/
  trace : ∀ s, ∃ events, (op s).2.obs.trace = s.obs.trace ++ events
  /-- The buses enter by their answers alone. -/
  determined : ∀ s₁ s₂, s₁.Alike s₂ →
    ((op s₁).1 = (op s₂).1 ∧ (op s₁).2.Alike (op s₂).2) ∨ PartAtAnswer (op s₁).2.obs.trace (op s₂).2.obs.trace

theorem AnswerDriven.bind {α β : Type} {op : State → α × State} {k : α → State → β × State} (hop : AnswerDriven op)
    (hk : ∀ x, AnswerDriven (k x)) : AnswerDriven fun s => k (op s).1 (op s).2 where
  trace s := by
    obtain ⟨l, hl⟩ := hop.trace s
    obtain ⟨m, hm⟩ := (hk (op s).1).trace (op s).2
    exact ⟨l ++ m, by rw [hm, hl, List.append_assoc]⟩
  determined s₁ s₂ h := by
    rcases hop.determined s₁ s₂ h with ⟨hx, halike⟩ | hpart
    · rw [hx]
      exact (hk _).determined _ _ halike
    · obtain ⟨m₁, hm₁⟩ := (hk (op s₁).1).trace (op s₁).2
      obtain ⟨m₂, hm₂⟩ := (hk (op s₂).1).trace (op s₂).2
      rw [hm₁, hm₂]
      exact .inr (hpart.append m₁ m₂)

/-- An operation that gives the same result and the same CPU and observations on every bus. -/
theorem AnswerDriven.of_blind {α : Type} {op : State → α × State}
    (htrace : ∀ s, ∃ events, (op s).2.obs.trace = s.obs.trace ++ events)
    (h : ∀ c o b₁ b₂, (op ⟨c, b₁, o⟩).1 = (op ⟨c, b₂, o⟩).1 ∧ (op ⟨c, b₁, o⟩).2.Alike (op ⟨c, b₂, o⟩).2) :
    AnswerDriven op where
  trace := htrace
  determined := by
    rintro ⟨c, b₁, o⟩ ⟨_, b₂, _⟩ ⟨rfl, rfl⟩
    exact .inl (h c o b₁ b₂)

/-- An update that accesses nothing and whose result does not look at the bus. -/
theorem AnswerDriven.of_quiet {α : Type} {op : State → α × State} (htrace : ∀ s, (op s).2.obs.trace = s.obs.trace)
    (h : ∀ c o b₁ b₂, (op ⟨c, b₁, o⟩).1 = (op ⟨c, b₂, o⟩).1 ∧ (op ⟨c, b₁, o⟩).2.Alike (op ⟨c, b₂, o⟩).2) :
    AnswerDriven op :=
  .of_blind (fun s => ⟨[], by rw [htrace, List.append_nil]⟩) h

/-- A read at an address that does not depend on the bus. -/
theorem memRead_answerDriven {a : State → Addr} (ha : ∀ c o b₁ b₂, a ⟨c, b₁, o⟩ = a ⟨c, b₂, o⟩) :
    AnswerDriven fun s => s.memRead (a s) where
  trace s := ⟨_, rfl⟩
  determined := by
    rintro ⟨c, b₁, o⟩ ⟨_, b₂, _⟩ ⟨rfl, rfl⟩
    rw [ha c o b₁ b₂]
    generalize a ⟨c, b₂, o⟩ = x
    by_cases hv : b₁.answer x = b₂.answer x
    · exact .inl ⟨hv, rfl, by simp [State.memRead, Bus.read, hv]⟩
    · exact .inr (partAtAnswer_of_read hv o.trace x)

theorem pop8_answerDriven : AnswerDriven State.pop8 :=
  (memRead_answerDriven (a := fun s => s.cpu.sp) fun _ _ _ _ => rfl).bind
    (k := fun v s => (v, s.setSP (s.cpu.sp + 1))) fun _ => .of_quiet (fun _ => rfl) fun _ _ _ _ => ⟨rfl, rfl, rfl⟩

theorem pop16_answerDriven : AnswerDriven State.pop16 :=
  pop8_answerDriven.bind fun lo => pop8_answerDriven.bind
    (k := fun hi s => (word16 hi lo, s)) fun _ => .of_quiet (fun _ => rfl) fun _ _ _ _ => ⟨rfl, rfl, rfl⟩

/-- Every instruction's effect is driven by the answers of the bus. -/
theorem after_answerDriven (i : Instr) : AnswerDriven fun s => ((), s.after i) := by
  have htrace (s : State) : ∃ events, (s.after i).obs.trace = s.obs.trace ++ events := by
    obtain ⟨events, haccesses, -⟩ := s.after_accesses i
    exact ⟨events, haccesses.trace⟩
  rcases hb : branchOf i with _ | ⟨c, rel⟩
  · cases i
    case ld r abs =>
      exact (memRead_answerDriven (a := fun _ => abs) fun _ _ _ _ => rfl).bind
        (k := fun v s => ((), (s.setReg r v).charge 4)) fun _ =>
          .of_quiet (fun _ => rfl) fun _ _ _ _ => ⟨rfl, rfl, rfl⟩
    case ldx r =>
      exact (memRead_answerDriven (a := State.pointer) fun _ _ _ _ => rfl).bind
        (k := fun v s => ((), (s.setReg r v).charge 2)) fun _ =>
          .of_quiet (fun _ => rfl) fun _ _ _ _ => ⟨rfl, rfl, rfl⟩
    case pop p =>
      exact pop16_answerDriven.bind (k := fun v s => ((), (s.setPair p v).charge 3)) fun _ =>
        .of_quiet (fun _ => rfl) fun _ _ _ _ => ⟨rfl, rfl, rfl⟩
    case popf =>
      exact pop8_answerDriven.bind (k := fun v s => ((), (s.setFlags v).charge 2)) fun _ =>
        .of_quiet (fun _ => rfl) fun _ _ _ _ => ⟨rfl, rfl, rfl⟩
    case ret =>
      exact pop16_answerDriven.bind (k := fun v s => ((), (s.setPC v).charge 4)) fun _ =>
        .of_quiet (fun _ => rfl) fun _ _ _ _ => ⟨rfl, rfl, rfl⟩
    case reti =>
      have hflags (f : Byte) : AnswerDriven fun s => ((), s.setFlags f) :=
        .of_quiet (fun _ => rfl) fun _ _ _ _ => ⟨rfl, rfl, rfl⟩
      exact pop8_answerDriven.bind fun f => (hflags f).bind fun _ => pop16_answerDriven.bind
        (k := fun v s => ((), ((s.setPC v).setIE true).charge 5)) fun _ =>
          .of_quiet (fun _ => rfl) fun _ _ _ _ => ⟨rfl, rfl, rfl⟩
    all_goals cases hb <;> exact .of_blind htrace fun _ _ _ _ => ⟨rfl, rfl, rfl⟩
  · refine .of_blind htrace fun _ _ _ _ => ?_
    simp only [State.after_branch hb]
    exact ⟨trivial, rfl, rfl⟩

/-! ## Fetch and step -/

theorem readIf_answerDriven (wanted : Bool) {a : State → Addr} (ha : ∀ c o b₁ b₂, a ⟨c, b₁, o⟩ = a ⟨c, b₂, o⟩) :
    AnswerDriven fun s => s.readIf wanted (a s) := by
  cases wanted with
  | false => exact .of_quiet (fun _ => rfl) fun _ _ _ _ => ⟨rfl, rfl, rfl⟩
  | true => exact memRead_answerDriven ha

theorem State.readIf_cpu (s : State) (wanted : Bool) (a : Addr) : (s.readIf wanted a).2.cpu = s.cpu := by
  cases wanted <;> rfl

/-- The bytes fetched and the state after the fetch. -/
def State.fetchBytes (s : State) : (Byte × Byte × Byte) × State := ((s.fetch.op, s.fetch.b1, s.fetch.b2), s.fetch.state)

theorem fetchBytes_answerDriven : AnswerDriven State.fetchBytes := by
  have hread := (memRead_answerDriven (a := fun s => s.cpu.pc) fun _ _ _ _ => rfl).bind fun op =>
    (readIf_answerDriven (decide (2 ≤ instrLen op)) (a := fun s => s.cpu.pc + 1) fun _ _ _ _ => rfl).bind fun b1 =>
      (readIf_answerDriven (decide (instrLen op = 3)) (a := fun s => s.cpu.pc + 2) fun _ _ _ _ => rfl).bind
        (k := fun b2 s => ((op, b1, b2), s.setPC (s.cpu.pc + BitVec.ofNat 16 (instrLen op)))) fun _ =>
          .of_quiet (fun _ => rfl) fun _ _ _ _ => ⟨rfl, rfl, rfl⟩
  simp only [State.readIf_cpu, State.memRead_cpu] at hread
  exact hread

/-- From the start of its fetch on, an executed instruction is driven by the answers of the bus. -/
theorem executed_determined {s₁ s₂ : State} (h : s₁.cpu = s₂.cpu) :
    s₁.executed.Alike s₂.executed ∨ PartAtAnswer s₁.executed.obs.trace s₂.executed.obs.trace := by
  have hbegin (op : Byte) : AnswerDriven fun s => ((), s.beginExec op) :=
    .of_quiet (fun _ => rfl) fun _ _ _ _ => ⟨rfl, rfl, rfl⟩
  have hrun := fetchBytes_answerDriven.bind fun code => (hbegin code.1).bind fun _ =>
    after_answerDriven (decodeOp code.1 code.2.1 code.2.2)
  exact (hrun.determined s₁.clearObs s₂.clearObs ⟨h, rfl⟩).imp_left And.right

/-- Two steps from one CPU state part only at a read that the buses answer differently (60_exceptions.md R286). -/
theorem step_determined {s₁ s₂ t u : State} (h : s₁.cpu = s₂.cpu) (h₁ : step s₁ = .next t) (h₂ : step s₂ = .next u) :
    t.Alike u ∨ PartAtAnswer t.obs.trace u.obs.trace := by
  obtain ⟨c, b₁, o₁⟩ := s₁
  obtain ⟨_, b₂, o₂⟩ := s₂
  obtain rfl : c = _ := h
  obtain ⟨hv, hcase⟩ := step_inversion h₁
  cases hcase with
  | acknowledge ha => rw [step_acknowledges (s := ⟨c, b₂, o₂⟩) hv ha] at h₂; cases h₂; exact .inl ⟨rfl, rfl⟩
  | wake ha hh hi => rw [step_wakes (s := ⟨c, b₂, o₂⟩) hv ha hh hi] at h₂; cases h₂; exact .inl ⟨rfl, rfl⟩
  | idle ha hh hi => rw [step_idles (s := ⟨c, b₂, o₂⟩) hv ha hh hi] at h₂; cases h₂; exact .inl ⟨rfl, rfl⟩
  | execute ha hh => rw [step_executes (s := ⟨c, b₂, o₂⟩) hv ha hh] at h₂; cases h₂; exact executed_determined rfl

end Sys2Proof.Machine
end

section
/-! SUPPORT. REF8 as a variant: its step record case by case, and the clauses of the generic contract (10_state.md R30, R60 to
R62; 60_exceptions.md R280 to R287; log 7). -/

namespace Sys2Proof.Machine

/-! ## The step record -/

/-- The state in which REF8 takes a step as a variant. -/
def Cpu.onBus (c : Cpu) (b : Bus) : State := { cpu := c, bus := b, obs := StepObs.empty }

/-- The step record that a state after a step holds. -/
def State.record (t : State) : VariantStep Cpu :=
  { state := t.cpu, bus := t.bus, cycles := t.obs.cycles, kind := ref8Kind t.obs.kind t.obs.trace, trace := t.obs.trace }

theorem stepRecord_inversion {c : Cpu} (h : c.valid) (b : Bus) :
    ∃ t, step (c.onBus b) = .next t ∧ StepCase (c.onBus b) t ∧ ref8Variant.step c b = t.record := by
  obtain ⟨t, hstep, hcase⟩ := exists_step (s := c.onBus b) h.1
  refine ⟨t, hstep, hcase, ?_⟩
  have hrecord : c.stepRecord b = t.record := by
    rw [Cpu.onBus] at hstep
    rw [Cpu.stepRecord, hstep]
    rfl
  exact hrecord

theorem answersOf_append (l m : List BusEvent) : answersOf (l ++ m) = answersOf l ++ answersOf m := by
  induction l with
  | nil => rfl
  | cons e l ih => cases e <;> simp [answersOf, ih]

theorem answersOf_reads (l : List Byte) (address : Nat → Addr) :
    answersOf (l.mapIdx fun k v => .read (address k) v) = l := by
  induction l generalizing address with
  | nil => rfl
  | cons v l ih =>
    rw [List.mapIdx_cons, answersOf]
    exact congrArg (v :: ·) (ih fun k => address (k + 1))

/-- The record of an executed instruction names the bytes fetched. -/
theorem State.executed_record_kind (s : State) : s.executed.record.kind = .exec s.code := by
  obtain ⟨events, -, haccesses⟩ := s.executed_accesses
  have htrace := haccesses.trace
  rw [State.clearObs_obs, StepObs.empty, List.nil_append] at htrace
  show ref8Kind s.executed.obs.kind s.executed.obs.trace = _
  rw [State.executed_kind, htrace, ref8Kind, answersOf_append, answersOf_reads, ← State.code_length, List.take_left]

/-- The kind of a step record says which of the four things the step did. -/
theorem StepCase.record_kind {s t : State} (h : StepCase s t) :
    (t.record.kind = .acknowledge ∧ s.cpu.accepts = true ∧ t = s.clearObs.acknowledge) ∨
    (t.record.kind = .halted ∧ s.cpu.accepts = false ∧ s.cpu.halted = true ∧
      (t = s.clearObs.wake ∨ t = s.clearObs.idle)) ∨
    (t.record.kind = .exec s.code ∧ s.cpu.accepts = false ∧ s.cpu.halted = false ∧ t = s.executed) := by
  cases h with
  | acknowledge ha => exact .inl ⟨rfl, ha, rfl⟩
  | wake ha hh => exact .inr (.inl ⟨rfl, ha, hh, .inl rfl⟩)
  | idle ha hh => exact .inr (.inl ⟨rfl, ha, hh, .inr rfl⟩)
  | execute ha hh => exact .inr (.inr ⟨s.executed_record_kind, ha, hh, rfl⟩)

section
variable {c : Cpu} {b : Bus} (h : c.valid)
include h

theorem ref8_acknowledge_record (hkind : (ref8Variant.step c b).kind = .acknowledge) :
    c.accepts = true ∧ ref8Variant.step c b = (c.onBus b).acknowledge.record := by
  obtain ⟨t, -, hcase, hrecord⟩ := stepRecord_inversion h b
  rw [hrecord] at hkind ⊢
  rcases hcase.record_kind with ⟨-, ha, rfl⟩ | ⟨hk, -⟩ | ⟨hk, -⟩
  · exact ⟨ha, rfl⟩
  · rw [hk] at hkind; cases hkind
  · rw [hk] at hkind; cases hkind

theorem ref8_halted_record (hkind : (ref8Variant.step c b).kind = .halted) :
    c.accepts = false ∧ c.halted = true ∧
      (ref8Variant.step c b = (c.onBus b).wake.record ∨ ref8Variant.step c b = (c.onBus b).idle.record) := by
  obtain ⟨t, -, hcase, hrecord⟩ := stepRecord_inversion h b
  rw [hrecord] at hkind ⊢
  rcases hcase.record_kind with ⟨hk, -⟩ | ⟨-, ha, hh, ht⟩ | ⟨hk, -⟩
  · rw [hk] at hkind; cases hkind
  · exact ⟨ha, hh, ht.imp (congrArg State.record) (congrArg State.record)⟩
  · rw [hk] at hkind; cases hkind

theorem ref8_exec_record {code : List Byte} (hkind : (ref8Variant.step c b).kind = .exec code) :
    c.halted = false ∧ code = (c.onBus b).code ∧ ref8Variant.step c b = (c.onBus b).executed.record := by
  obtain ⟨t, -, hcase, hrecord⟩ := stepRecord_inversion h b
  rw [hrecord] at hkind ⊢
  rcases hcase.record_kind with ⟨hk, -⟩ | ⟨hk, -⟩ | ⟨hk, -, hh, rfl⟩
  · rw [hk] at hkind; cases hkind
  · rw [hk] at hkind; cases hkind
  · rw [hk] at hkind
    injection hkind with hcode
    exact ⟨hh, hcode.symm, rfl⟩

theorem ref8_step_valid : (ref8Variant.step c b).state.valid := by
  obtain ⟨t, -, hcase, hrecord⟩ := stepRecord_inversion h b
  obtain ⟨hvariant, hf⟩ := h
  obtain ⟨-, hkept, -⟩ := hcase.fixed
  rw [hrecord]
  exact ⟨hkept.trans hvariant, hcase.f_clear hf⟩

theorem ref8_cycles : 1 ≤ (ref8Variant.step c b).cycles ∧ (ref8Variant.step c b).cycles ≤ 16 ∧
    (ref8Variant.step c b).state.cyc = c.cyc + BitVec.ofNat 64 (ref8Variant.step c b).cycles := by
  obtain ⟨t, -, hcase, hrecord⟩ := stepRecord_inversion h b
  rw [hrecord]
  exact hcase.cycles

theorem ref8_cycles_counted : (ref8Variant.step c b).cycles < 2 ^ 64 ∧
    (ref8Variant.step c b).state.cyc.toNat = (c.cyc.toNat + (ref8Variant.step c b).cycles) % 2 ^ 64 := by
  obtain ⟨-, hle, hcyc⟩ := ref8_cycles (b := b) h
  refine ⟨by omega, ?_⟩
  rw [hcyc, BitVec.toNat_add, BitVec.toNat_ofNat, Nat.add_mod_mod]

theorem ref8_trace_faithful : b.replay (ref8Variant.step c b).trace = some (ref8Variant.step c b).bus := by
  obtain ⟨t, -, hcase, hrecord⟩ := stepRecord_inversion h b
  rw [hrecord]
  exact hcase.replay

theorem ref8_acknowledge_iff : (ref8Variant.step c b).kind = .acknowledge ↔ c.accepts = true := by
  obtain ⟨t, -, hcase, hrecord⟩ := stepRecord_inversion h b
  rw [hrecord]
  rcases hcase.record_kind with ⟨hk, ha, -⟩ | ⟨hk, ha, -⟩ | ⟨hk, ha, -⟩ <;>
    simp [hk, show c.accepts = _ from ha]

theorem ref8_halted_iff : (ref8Variant.step c b).kind = .halted ↔ c.halted = true ∧ c.accepts = false := by
  obtain ⟨t, -, hcase, hrecord⟩ := stepRecord_inversion h b
  rw [hrecord]
  rcases hcase.record_kind with ⟨hk, ha, -⟩ | ⟨hk, ha, hh, -⟩ | ⟨hk, ha, hh, -⟩
  · simp [hk, show c.accepts = _ from ha]
  · simp [hk, show c.accepts = _ from ha, show c.halted = _ from hh]
  · simp [hk, show c.halted = _ from hh]

end

theorem ref8_determined {c : Cpu} (h : c.valid) (b₁ b₂ : Bus) :
    ((ref8Variant.step c b₁).state = (ref8Variant.step c b₂).state ∧
      (ref8Variant.step c b₁).cycles = (ref8Variant.step c b₂).cycles ∧
      (ref8Variant.step c b₁).kind = (ref8Variant.step c b₂).kind ∧
      (ref8Variant.step c b₁).trace = (ref8Variant.step c b₂).trace) ∨
    PartAtAnswer (ref8Variant.step c b₁).trace (ref8Variant.step c b₂).trace := by
  obtain ⟨t₁, hstep₁, -, hrecord₁⟩ := stepRecord_inversion h b₁
  obtain ⟨t₂, hstep₂, -, hrecord₂⟩ := stepRecord_inversion h b₂
  rw [hrecord₁, hrecord₂]
  refine (step_determined (s₁ := c.onBus b₁) (s₂ := c.onBus b₂) rfl hstep₁ hstep₂).imp_left fun halike => ?_
  obtain ⟨hcpu, hobs⟩ := halike
  simp only [State.record, hcpu, hobs, and_self]

/-! ## Executed instructions -/

theorem ref8_codeReads (c : Cpu) (code : List Byte) :
    ref8Variant.codeReads c code = code.mapIdx fun k v => .read (c.pc + BitVec.ofNat 16 k) v := by
  have haddress (k : Nat) : BitVec.ofNat 16 (ref8Variant.codeAt c k) = c.pc + BitVec.ofNat 16 k := by
    apply BitVec.eq_of_toNat_eq
    show (c.pc.toNat + k) % 2 ^ 16 % 2 ^ 16 = _
    simp
  simp only [Variant.codeReads, haddress]

theorem ref8_exec_trace {c : Cpu} {b : Bus} {code : List Byte} (h : c.valid)
    (hkind : (ref8Variant.step c b).kind = .exec code) :
    ∃ events, (ref8Variant.step c b).trace = ref8Variant.codeReads c code ++ events ∧
      events.map BusEvent.access = dataAccesses (c.onBus b).execStart (c.onBus b).nextInstr := by
  obtain ⟨-, rfl, hrecord⟩ := ref8_exec_record h hkind
  obtain ⟨events, hmap, haccesses⟩ := (c.onBus b).executed_accesses
  refine ⟨events, ?_, hmap⟩
  rw [hrecord, ref8_codeReads]
  exact haccesses.trace

theorem ref8_exec_fetches {c : Cpu} {b : Bus} {code : List Byte} (h : c.valid)
    (hkind : (ref8Variant.step c b).kind = .exec code) :
    code ≠ [] ∧ (ref8Variant.codeReads c code).Sublist (ref8Variant.step c b).trace ∧
      (ref8Variant.step c b).trace.head? = (ref8Variant.codeReads c code).head? := by
  obtain ⟨events, htrace, -⟩ := ref8_exec_trace h hkind
  obtain ⟨-, hcode, -⟩ := ref8_exec_record h hkind
  obtain ⟨rest, hcons⟩ := (c.onBus b).code_eq_cons
  rw [hcons] at hcode
  rw [htrace]
  refine ⟨by rw [hcode]; exact List.cons_ne_nil _ _, List.sublist_append_left _ _, ?_⟩
  rw [ref8_codeReads, hcode, List.mapIdx_cons]
  rfl

theorem transfers_congr {s t : State} (h : s.cpu.f = t.cpu.f) (i : Instr) : transfers s i = transfers t i := by
  have hflags : s.flags = t.flags := congrArg maskFlags h
  cases i <;> simp only [transfers, hflags]

/-- An instruction that is no control transfer leaves PC after its bytes (60_exceptions.md R280). -/
theorem State.executed_pc {s : State} (h : transfers s s.nextInstr = false) :
    s.executed.cpu.pc = s.cpu.pc + BitVec.ofNat 16 s.code.length := by
  have hstart : transfers s.execStart s.nextInstr = false := by
    rw [← h]
    exact transfers_congr (by rw [State.execStart_cpu]) _
  rw [State.executed, State.after_pc_of_not_transfers hstart, State.execStart_cpu]

theorem ref8_codeAt_length {c : Cpu} (code : List Byte) :
    (c.pc + BitVec.ofNat 16 code.length).toNat = ref8Variant.codeAt c code.length := by
  show _ = (c.pc.toNat + code.length) % 2 ^ 16
  simp

theorem ref8_exec_advances {c : Cpu} {b : Bus} {code : List Byte} (h : c.valid)
    (hkind : (ref8Variant.step c b).kind = .exec code) (htransfers : c.transfers code = false) :
    (ref8Variant.step c b).state.pc.toNat = ref8Variant.codeAt c code.length := by
  obtain ⟨-, rfl, hrecord⟩ := ref8_exec_record h hkind
  rw [Cpu.transfers, State.decode_code] at htransfers
  have hnot : transfers (c.onBus b) (c.onBus b).nextInstr = false :=
    (transfers_congr rfl _).trans htransfers
  rw [hrecord, ← ref8_codeAt_length]
  exact congrArg BitVec.toNat (State.executed_pc hnot)

/-! ## Reserved opcodes -/

/-- The instruction of one of the three reserved rows (43_system.md R266). -/
def IsReserved (i : Instr) : Prop := i = .illegal3F ∨ i = .illegalFB ∨ ∃ op, i = .illegalFC op

theorem State.after_reserved {i : Instr} (h : IsReserved i) (s : State) : s.after i = s.charge 2 := by
  rcases h with rfl | rfl | ⟨op, rfl⟩ <;> rfl

theorem decode_reserved_high (op : Byte) (h : 0xFB ≤ op.toNat) :
    decode [op] = .ok (.illegalFB, []) ∨ decode [op] = .ok (.illegalFC op, []) := by
  revert op
  decide

/-- The bytes of an illegal opcode are decoded as a reserved instruction. -/
theorem decode_illegal {code : List Byte} (h : ref8Illegal code = some .noOp) :
    ∃ i : Instr, IsReserved i ∧ decode code = .ok (i, []) := by
  unfold ref8Illegal at h
  split at h
  · next hcode => exact ⟨.illegal3F, .inl rfl, by rw [hcode]; rfl⟩
  · split at h
    · next op _ =>
      split at h
      · next hop =>
        rcases decode_reserved_high op hop with hd | hd
        · exact ⟨_, .inr (.inl rfl), hd⟩
        · exact ⟨_, .inr (.inr ⟨op, rfl⟩), hd⟩
      · cases h
    · cases h

theorem ref8Illegal_ne_lockup (code : List Byte) : ref8Illegal code ≠ some .lockup := by
  unfold ref8Illegal
  split
  · nofun
  · split
    · split <;> nofun
    · nofun

/-- A reserved opcode charges 2 cycles beyond its fetch and does nothing else (43_system.md R266). -/
theorem State.executed_of_illegal {s : State} (h : ref8Illegal s.code = some .noOp) :
    s.executed = s.execStart.charge 2 := by
  obtain ⟨i, hi, hdecode⟩ := decode_illegal h
  rw [State.decode_code] at hdecode
  obtain rfl : s.nextInstr = i := by
    injection hdecode with hpair
    exact congrArg Prod.fst hpair
  exact State.after_reserved hi _

theorem ref8_illegal_noOp {c : Cpu} {b : Bus} {code : List Byte} (h : c.valid)
    (hkind : (ref8Variant.step c b).kind = .exec code) (hillegal : ref8Illegal code = some .noOp) :
    (ref8Variant.step c b).state =
        { c with pc := c.pc + BitVec.ofNat 16 code.length, ies := false, cyc := c.cyc + 2 } ∧
      (ref8Variant.step c b).trace = ref8Variant.codeReads c code := by
  obtain ⟨-, rfl, hrecord⟩ := ref8_exec_record h hkind
  have hexecuted := State.executed_of_illegal hillegal
  rw [hrecord, State.record, hexecuted, ref8_codeReads]
  refine ⟨?_, (c.onBus b).execStart_accesses.trace⟩
  show { (c.onBus b).execStart.cpu with cyc := (c.onBus b).execStart.cpu.cyc + 2 } = _
  rw [State.execStart_cpu]
  rfl

/-! ## Contents -/

theorem ref8_accepts (c : Cpu) : ref8Variant.accepts c = c.accepts := by
  show (c.irq && (c.ie.toNat == 1) && !c.ies) = (c.irq && c.ie && !c.ies)
  cases c.ie <;> rfl

theorem clear_iff_toNat_lt (f : Byte) : f &&& 0xF0 = 0x00 ↔ f.toNat < 16 := by
  revert f
  decide

theorem ref8_registers_fixed (c : Cpu) :
    List.Forall₂ (fun r v => v < 2 ^ r.2) ref8Variant.registerFile (ref8Variant.registers c) := by
  show List.Forall₂ _ ref8Registers c.registerValues
  rw [Cpu.registerValues, regs_toList]
  exact .cons (c.regs[0]).isLt (.cons (c.regs[1]).isLt (.cons (c.regs[2]).isLt (.cons (c.regs[3]).isLt
    (.cons (c.regs[4]).isLt (.cons (c.regs[5]).isLt (.cons (c.regs[6]).isLt (.cons (c.regs[7]).isLt
    (.cons c.sp.isLt .nil))))))))

/-- A list of values that fit the register file is the register values of the registers that hold them. -/
theorem registerValues_of_fit {rs : List Nat} (h : List.Forall₂ (fun r v => v < 2 ^ r.2) ref8Registers rs) :
    ∃ (regs : Vector Byte 8) (sp : Addr), regs.toList.map (fun v => v.toNat) ++ [sp.toNat] = rs := by
  obtain ⟨r0, _, hr0, tail0, rfl⟩ := List.forall₂_cons_left_iff.mp h
  obtain ⟨r1, _, hr1, tail1, rfl⟩ := List.forall₂_cons_left_iff.mp tail0
  obtain ⟨r2, _, hr2, tail2, rfl⟩ := List.forall₂_cons_left_iff.mp tail1
  obtain ⟨r3, _, hr3, tail3, rfl⟩ := List.forall₂_cons_left_iff.mp tail2
  obtain ⟨r4, _, hr4, tail4, rfl⟩ := List.forall₂_cons_left_iff.mp tail3
  obtain ⟨r5, _, hr5, tail5, rfl⟩ := List.forall₂_cons_left_iff.mp tail4
  obtain ⟨r6, _, hr6, tail6, rfl⟩ := List.forall₂_cons_left_iff.mp tail5
  obtain ⟨r7, _, hr7, tail7, rfl⟩ := List.forall₂_cons_left_iff.mp tail6
  obtain ⟨sp, _, hsp, tail8, rfl⟩ := List.forall₂_cons_left_iff.mp tail7
  obtain rfl := List.forall₂_nil_left_iff.mp tail8
  refine ⟨#v[BitVec.ofNat 8 r0, BitVec.ofNat 8 r1, BitVec.ofNat 8 r2, BitVec.ofNat 8 r3, BitVec.ofNat 8 r4,
    BitVec.ofNat 8 r5, BitVec.ofNat 8 r6, BitVec.ofNat 8 r7], BitVec.ofNat 16 sp, ?_⟩
  simp only [Vector.toList_mk, List.map_cons, List.map_nil, List.cons_append, List.nil_append, BitVec.toNat_ofNat,
    Nat.mod_eq_of_lt hr0, Nat.mod_eq_of_lt hr1, Nat.mod_eq_of_lt hr2, Nat.mod_eq_of_lt hr3, Nat.mod_eq_of_lt hr4,
    Nat.mod_eq_of_lt hr5, Nat.mod_eq_of_lt hr6, Nat.mod_eq_of_lt hr7, Nat.mod_eq_of_lt hsp]

theorem ref8_contents_held {rs : List Nat} {p f e n : Nat}
    (hrs : List.Forall₂ (fun r v => v < 2 ^ r.2) ref8Registers rs) (hp : p < 2 ^ 16) (hf : f < 16) (he : e < 2)
    (hn : n < 2 ^ 64) :
    ∃ c : Cpu, c.valid ∧ c.registerValues = rs ∧ c.pc.toNat = p ∧ c.f.toNat = f ∧ c.ie.toNat = e ∧ c.cyc.toNat = n := by
  obtain ⟨regs, sp, hvalues⟩ := registerValues_of_fit hrs
  have hftoNat : (BitVec.ofNat 8 f).toNat = f := Nat.mod_eq_of_lt (by omega)
  refine ⟨{ regs := regs, sp := sp, pc := BitVec.ofNat 16 p, f := BitVec.ofNat 8 f, ie := e == 1, ies := false,
            halted := false, irq := false, cyc := BitVec.ofNat 64 n, variant := ref8Tag }, ⟨rfl, ?_⟩, hvalues,
    Nat.mod_eq_of_lt hp, hftoNat, ?_, Nat.mod_eq_of_lt hn⟩
  · rw [clear_iff_toNat_lt, hftoNat]
    exact hf
  · interval_cases e <;> rfl

/-! ## Images -/

theorem ref8_image_valid {image : List Byte} {c : Cpu} (h : Cpu.deserialize image = .ok c) : c.valid := by
  cases htag : ref8VersionTag image with
  | none => rw [deserialize_unframed htag] at h; cases h
  | some v =>
    by_cases hv : v ≤ imageVersion.toNat
    · rw [deserialize_supported htag hv] at h
      split at h
      · next hs =>
        cases h
        obtain ⟨-, hf, -⟩ := (ref8StructureHolds_iff image).mp hs
        exact ⟨rfl, hf⟩
      · cases h
    · rw [deserialize_newer htag (Nat.not_le.mp hv)] at h
      cases h

theorem ref8_image_mismatched {image : List Byte} (h : ¬[ref8Tag] <+: image) :
    Cpu.deserialize image = .error .corruptData := by
  refine deserialize_unframed (ref8VersionTag_eq_none_iff.mpr ?_)
  cases image with
  | nil => exact .inl nofun
  | cons v rest => exact .inr fun (hv : v = ref8Tag) => h ⟨rest, by rw [hv]; rfl⟩

theorem ref8_image_truncated (c : Cpu) {n : Nat} (h : n < c.serialize.length) :
    Cpu.deserialize (c.serialize.take n) = .error .corruptData := by
  refine deserialize_unframed (ref8VersionTag_eq_none_iff.mpr (.inl ?_))
  rw [List.length_take, Nat.min_eq_left (Nat.le_of_lt h)]
  rw [Cpu.serialize_length] at h
  exact Nat.ne_of_lt h

/-! ## The contract -/

/-- Settles O58, clause by clause. -/
theorem ref8MeetsContract : Obligations.Ref8MeetsContract := by
  unfold Obligations.Ref8MeetsContract
  exact
  { tag_selected := by decide
    reset_valid := ⟨rfl, rfl⟩
    step_valid := fun _ _ h => ref8_step_valid h
    interrupt_valid := fun _ _ h => h
    register_file := by decide
    registers_fixed := fun c _ => ref8_registers_fixed c
    contents_fixed := fun c h => ⟨c.pc.isLt, (clear_iff_toNat_lt c.f).mp h.2, Bool.toNat_lt c.ie, c.cyc.isLt⟩
    contents_held := fun _ _ _ _ _ hrs hp hf he hn => ref8_contents_held hrs hp hf he hn
    contents_several := ⟨⟨0, 1, Nat.zero_ne_one, Nat.zero_lt_succ _, Nat.one_lt_succ_succ _⟩,
      ⟨0, 1, Nat.zero_ne_one, Nat.zero_lt_succ _, Nat.one_lt_succ_succ _⟩, ⟨1, Nat.one_lt_two, rfl⟩,
      ⟨0, Nat.zero_lt_two, rfl⟩, Nat.zero_lt_succ _⟩
    program_width := fun _ h => h
    progress := fun _ _ h => (ref8_cycles h).1
    cycles_counted := fun _ _ h => ref8_cycles_counted h
    cycles_own := fun c _ => by simp [ref8Variant]
    cycles_alone := fun _ _ => ⟨⟨rfl, rfl, rfl, rfl, rfl, rfl⟩, rfl, rfl⟩
    exec_fetches := fun _ _ _ h hkind => ref8_exec_fetches h hkind
    exec_advances := fun _ _ _ h hkind ht => ref8_exec_advances h hkind ht
    halted_iff := fun c _ h => by rw [ref8_accepts]; exact ref8_halted_iff h
    halted_alone := fun _ _ h hkind => by
      obtain ⟨-, -, hrecord | hrecord⟩ := ref8_halted_record h hkind <;> rw [hrecord] <;>
        exact ⟨⟨rfl, rfl, rfl, rfl, rfl, rfl⟩, rfl, rfl⟩
    halted_cycle := fun _ _ h hkind _ => by
      obtain ⟨-, -, hrecord | hrecord⟩ := ref8_halted_record h hkind <;> rw [hrecord] <;> rfl
    acknowledge_iff := fun _ _ h => by rw [ref8_accepts]; exact ref8_acknowledge_iff h
    acknowledge_constant := ⟨6, fun _ _ h hkind => by rw [(ref8_acknowledge_record h hkind).2]; rfl⟩
    acknowledge_pushes := fun c b h hkind => by
      rw [(ref8_acknowledge_record h hkind).2, State.record, (c.onBus b).acknowledge_accesses.trace]; rfl
    context_returns := fun c _ => (by
      show (highByte c.pc).toNat * 256 + (lowByte c.pc).toNat = c.pc.toNat
      rw [Nat.mul_comm, Nat.add_comm, word16_toNat])
    acknowledge_fetches_nothing := fun c b h hkind => by
      rw [(ref8_acknowledge_record h hkind).2, State.record, (c.onBus b).acknowledge_accesses.trace]; rfl
    acknowledge_jumps := fun _ _ h hkind => by rw [(ref8_acknowledge_record h hkind).2]; rfl
    illegal_noOp := fun c b code h hkind hillegal => by
      obtain ⟨hstate, htrace⟩ := ref8_illegal_noOp h hkind hillegal
      rw [hstate]
      exact ⟨rfl, rfl, rfl, rfl, rfl, rfl, ref8_codeAt_length code, htrace⟩
    illegal_lockup := fun _ _ code _ _ hlockup => absurd hlockup (ref8Illegal_ne_lockup code)
    lockup_halts := fun _ _ hlocked => absurd hlocked Bool.false_ne_true
    lockup_changes_cycles := fun _ _ _ hlocked => absurd hlocked Bool.false_ne_true
    lockup_repeats := fun _ _ _ _ _ hlocked => absurd hlocked Bool.false_ne_true
    trace_faithful := fun _ _ h => ref8_trace_faithful h
    determined := fun _ b₁ b₂ h => ref8_determined h b₁ b₂
    interrupt_sets := fun _ _ _ => rfl
    interrupt_alone := fun _ _ _ => ⟨⟨rfl, rfl, rfl, rfl, rfl, rfl⟩, rfl, rfl⟩
    interrupt_same := fun _ _ => rfl
    interrupt_last := fun _ _ _ _ => rfl
    image_round_trip := fun _ h => deserialize_serialize h.1 h.2
    image_valid := fun _ _ h => ref8_image_valid h
    image_truncated := fun c _ _ h => ref8_image_truncated c h
    image_magic := fun c _ => ⟨c.serialize.tail, rfl⟩
    image_mismatched := fun _ h => ref8_image_mismatched h
    image_unframed := fun _ h => deserialize_unframed h
    image_newer := fun _ _ h hv => deserialize_newer h hv
    image_invalid := fun _ _ h hv hs => (deserialize_supported h hv).trans (if_neg (Bool.not_eq_true _ ▸ hs))
    image_accepted := fun b _ h hv hs => ⟨imageCpu b, (deserialize_supported h hv).trans (if_pos hs)⟩ }

end Sys2Proof.Machine
end

section
/-! SUPPORT. The claims about memory and the bus: the canonical form (20_memory.md R77, R92; log 1), read after write
(20_memory.md R74, R75), and the accesses of a step (20_memory.md R70 to R72, R80, R81, R91; 30_encoding.md R114). -/

namespace Sys2Proof.Machine

/-! ## Canonical memories -/

/-- In a canonical memory the first entry lies below the others and differs from what an unlisted address reads as, and
the others are a canonical memory. -/
theorem Memory.wf.of_cons {c : Host.Cell} {m : Memory} (h : Memory.wf (c :: m)) :
    (∀ d ∈ m, c.1 < d.1) ∧ c.2 ≠ Memory.unlisted ∧ m.wf := by
  obtain ⟨hrising, hcells⟩ := h
  obtain ⟨hbelow, hrising⟩ := List.pairwise_cons.mp hrising
  obtain ⟨⟨-, hlisted⟩, hcells⟩ := List.forall_mem_cons.mp hcells
  exact ⟨hbelow, hlisted, hrising, hcells⟩

@[simp] theorem Memory.byteAt_cons_first (c : Host.Cell) (m : Memory) : Memory.byteAt (c :: m) c.1 = c.2 :=
  if_pos rfl

/-- A canonical memory without its first entry reads there as unlisted, and elsewhere as before. -/
theorem Memory.byteAt_tail {c : Host.Cell} {m : Memory} (h : Memory.wf (c :: m)) (a : Nat) :
    m.byteAt a = if c.1 = a then Memory.unlisted else Memory.byteAt (c :: m) a := by
  obtain ⟨hbelow, -, -⟩ := h.of_cons
  split
  · next ha => exact Memory.byteAt_of_lt m a (ha ▸ hbelow)
  · next ha => exact (if_neg ha).symm

/-- Of two canonical memories that read the same, neither begins below the other: the other would read there as
unlisted. -/
theorem Memory.first_le {c d : Host.Cell} {m n : Memory} (hm : Memory.wf (c :: m)) (hn : Memory.wf (d :: n))
    (h : ∀ a, Memory.byteAt (c :: m) a = Memory.byteAt (d :: n) a) : d.1 ≤ c.1 := by
  obtain ⟨-, hlisted, -⟩ := hm.of_cons
  obtain ⟨hbelow, -, -⟩ := hn.of_cons
  by_contra! hlt
  have hunlisted : Memory.byteAt (d :: n) c.1 = Memory.unlisted :=
    Memory.byteAt_of_lt _ _ (List.forall_mem_cons.mpr ⟨hlt, fun e he => hlt.trans (hbelow e he)⟩)
  rw [← h, Memory.byteAt_cons_first] at hunlisted
  exact hlisted hunlisted

/-- A canonical memory that reads everywhere as unlisted holds nothing. -/
theorem Memory.eq_nil_of_unlisted {m : Memory} (hm : m.wf) (h : ∀ a, m.byteAt a = Memory.unlisted) : m = [] := by
  cases m with
  | nil => rfl
  | cons c m =>
    obtain ⟨-, hlisted, -⟩ := hm.of_cons
    exact absurd ((Memory.byteAt_cons_first c m).symm.trans (h c.1)) hlisted

/-- Settles O53, by induction on the entries: two canonical memories that read the same begin with the same entry, and
without it they still read the same. -/
theorem canonicalMemoriesEqual : Obligations.CanonicalMemoriesEqual := by
  unfold Obligations.CanonicalMemoriesEqual
  intro m n hm hn h
  induction m generalizing n with
  | nil => exact (Memory.eq_nil_of_unlisted hn fun a => (h a).symm).symm
  | cons c m ih =>
    cases n with
    | nil => exact Memory.eq_nil_of_unlisted hm h
    | cons d n =>
      have hfirst : c.1 = d.1 := Nat.le_antisymm (Memory.first_le hn hm fun a => (h a).symm) (Memory.first_le hm hn h)
      have hbyte : c.2 = d.2 := by rw [← Memory.byteAt_cons_first c m, h, hfirst, Memory.byteAt_cons_first]
      obtain ⟨-, -, hmrest⟩ := hm.of_cons
      obtain ⟨-, -, hnrest⟩ := hn.of_cons
      have hrest : m = n := ih n hmrest hnrest fun a => by
        rw [Memory.byteAt_tail hm, Memory.byteAt_tail hn, hfirst, h]
      rw [Prod.ext hfirst hbyte, hrest]

/-! ## Read after write -/

/-- A byte written to RAM is what memory holds there. -/
theorem Bus.write_byteAt_same {b : Bus} {a : Addr} (hwf : b.mem.wf) (hram : b.kindAt a = .ram) (v : Byte) :
    (b.write a v).mem.byteAt a.toNat = v := by
  rw [Bus.write_mem, if_pos hram]
  exact Memory.byteAt_store_same _ _ _ hwf

/-- A write to ROM or to an unmapped address has no effect (20_memory.md R74, R75). -/
theorem Bus.write_ignored {b : Bus} {a : Addr} (h : b.kindAt a = .rom ∨ b.kindAt a = .unmapped) (v : Byte) :
    b.write a v = b := by
  rcases h with h | h <;> simp only [Bus.write, h]

/-- Settles O52: no access at another address changes the stored byte or makes the address anything but RAM. -/
theorem busLaws : Obligations.BusLaws := by
  unfold Obligations.BusLaws
  intro b a v hwf
  refine ⟨fun hram events b' hother hreplay => ?_,
    fun hrom => ⟨Bus.write_ignored (.inl hrom) v, Bus.answer_of_memory b a (.inr hrom)⟩,
    fun hunmapped => Bus.write_ignored (.inr hunmapped) v⟩
  have hkind : b'.kindAt a = .ram := by
    rw [Bus.kindAt_congr (Bus.replay_regions hreplay), Bus.write_kindAt, hram]
  have hunwritten : Access.write a ∉ events.map BusEvent.access := by
    intro hmem
    obtain ⟨e, he, haccess⟩ := List.mem_map.mp hmem
    exact (hother e he).2 haccess
  calc b'.answer a
    _ = b'.mem.byteAt a.toNat := Bus.answer_of_memory b' a (.inl hkind)
    _ = (b.write a v).mem.byteAt a.toNat := Bus.replay_byteAt_other hreplay hunwritten
    _ = v := Bus.write_byteAt_same hwf hram v

/-! ## The accesses of a step -/

/-- Settles O47: each of the four things a step can do accounts for the bus by its trace. -/
theorem traceAccountsForBus : Obligations.TraceAccountsForBus := by
  unfold Obligations.TraceAccountsForBus
  intro s t hstep
  obtain ⟨-, hcase⟩ := step_inversion hstep
  exact hcase.replay

/-- The addresses of the access table are taken from the registers and SP alone. -/
theorem dataAccesses_congr {s t : State} (hregs : s.cpu.regs = t.cpu.regs) (hsp : s.cpu.sp = t.cpu.sp) (i : Instr) :
    dataAccesses s i = dataAccesses t i := by
  have hpointer : s.pointer = t.pointer := by simp only [State.pointer, State.pair, State.reg, hregs]
  cases i
  case ldx | stx => simp only [dataAccesses, hpointer]
  case push | pop | pushf | popf | call | calli | ret | reti | swi => simp only [dataAccesses, hsp]
  all_goals rfl

/-- Fetching an instruction changes no address of the access table. -/
theorem State.execStart_dataAccesses (s : State) (i : Instr) : dataAccesses s.execStart i = dataAccesses s i :=
  dataAccesses_congr (by rw [State.execStart_cpu]) (by rw [State.execStart_cpu]) i

/-- Settles O45: an instruction makes the accesses of the table, and one that a step executes makes them after the reads
of its fetch, at the addresses the table gives before it. -/
theorem accessTableHolds : Obligations.AccessTableHolds := by
  unfold Obligations.AccessTableHolds
  constructor
  · intro i s t h
    obtain rfl := exec_eq_next_iff.mp h
    obtain ⟨events, haccesses, hmap⟩ := s.after_accesses i
    exact ⟨events, haccesses.trace, hmap⟩
  · intro s t op hstep hkind
    obtain ⟨-, hcase⟩ := step_inversion hstep
    cases hcase with
    | acknowledge => cases hkind
    | wake => cases hkind
    | idle => cases hkind
    | execute =>
      rw [State.executed_kind] at hkind
      injection hkind with hkind
      injection hkind with hop
      subst hop
      obtain ⟨events, hmap, haccesses⟩ := s.executed_accesses
      exact ⟨s.fetched.b1, s.fetched.b2, events, haccesses.trace, by rw [hmap, s.execStart_dataAccesses]; rfl⟩

end Sys2Proof.Machine
end

section
/-! SUPPORT. The decoder and the encoder undo each other (30_encoding.md R100 to R115). A decoded instruction is the one its
opcode byte names, with the operand bytes put in; so what depends on the opcode byte alone is checked over the 256 opcode
bytes, and what depends on the operands over the constructors. -/

namespace Sys2Proof

open Machine

/-! ## The operands of an instruction (30_encoding.md R101, R104 to R106) -/

/-- The instruction with its immediate, offset or address taken from the operand bytes; one without is as it was. -/
def Instr.withOperands (b1 b2 : Byte) : Instr → Instr
  | .ldi r _ => .ldi r b1
  | .ld r _ => .ld r (imm16 b1 b2)
  | .st r _ => .st r (imm16 b1 b2)
  | .ldw p _ => .ldw p (imm16 b1 b2)
  | .ldsp _ => .ldsp (imm16 b1 b2)
  | .addi _ => .addi b1
  | .adci _ => .adci b1
  | .subi _ => .subi b1
  | .sbci _ => .sbci b1
  | .andi _ => .andi b1
  | .xori _ => .xori b1
  | .ori _ => .ori b1
  | .cmpi _ => .cmpi b1
  | .beq _ => .beq b1
  | .bne _ => .bne b1
  | .bcs _ => .bcs b1
  | .bcc _ => .bcc b1
  | .bmi _ => .bmi b1
  | .bpl _ => .bpl b1
  | .bvs _ => .bvs b1
  | .bvc _ => .bvc b1
  | .jmp _ => .jmp (imm16 b1 b2)
  | .call _ => .call (imm16 b1 b2)
  | .bra _ => .bra b1
  | i => i

@[simp] theorem Instr.wellFormed_withOperands (b1 b2 : Byte) (i : Instr) :
    (i.withOperands b1 b2).wellFormed = i.wellFormed := by
  cases i <;> rfl

@[simp] theorem Instr.row_withOperands (b1 b2 : Byte) (i : Instr) : (i.withOperands b1 b2).row = i.row := by
  cases i <;> rfl

@[simp] theorem bytes16_imm16 (b1 b2 : Byte) : bytes16 (imm16 b1 b2) = [b1, b2] := by
  have hlow : (imm16 b1 b2).extractLsb' 0 8 = b1 := lowByte_word16 b2 b1
  have hhigh : (imm16 b1 b2).extractLsb' 8 8 = b2 := highByte_word16 b2 b1
  rw [bytes16, hlow, hhigh]

theorem imm16_halves (v : Addr) : imm16 (v.extractLsb' 0 8) (v.extractLsb' 8 8) = v :=
  word16_halves v

/-- As many operand bytes are put in as the format has, and they are encoded in memory order. -/
theorem operandBytes_withOperands (b1 b2 : Byte) (i : Instr) :
    operandBytes (i.withOperands b1 b2) = [b1, b2].take (operandBytes i).length := by
  cases i
  case ld | st | ldw | ldsp | jmp | call => exact bytes16_imm16 b1 b2
  all_goals rfl

/-- An instruction is not changed by its own operand bytes. -/
theorem Instr.withOperands_operandBytes (i : Instr) :
    i.withOperands ((operandBytes i).getD 0 0x00) ((operandBytes i).getD 1 0x00) = i := by
  cases i
  case ld r abs | st r abs => exact congrArg _ (imm16_halves abs)
  case ldw p imm => exact congrArg _ (imm16_halves imm)
  case ldsp v | jmp v | call v => exact congrArg _ (imm16_halves v)
  all_goals rfl

/-! ## The opcode byte (30_encoding.md R110, R112, R113) -/

theorem isReservedHigh_iff (op : Byte) :
    isReservedHigh op = true ↔ op = 0xFC ∨ op = 0xFD ∨ op = 0xFE ∨ op = 0xFF := by
  revert op
  decide

/-- The decoder reads the opcode byte of a well-formed instruction as that instruction, whatever the operand bytes, which
become its operands. -/
theorem decodeOp_opcodeOf {i : Instr} (h : i.wellFormed = true) (b1 b2 : Byte) :
    decodeOp (opcodeOf i) b1 b2 = i.withOperands b1 b2 := by
  cases i <;> dsimp only [opcodeOf]
  case illegalFC op => rcases (isReservedHigh_iff op).mp h with rfl | rfl | rfl | rfl <;> rfl
  case mov d r => fin_cases d <;> fin_cases r <;> rfl
  case ldi r _ | ld r _ | st r _ => fin_cases r <;> rfl
  case ldw p _ => fin_cases p <;> rfl
  case incw p | decw p | push p | pop p => fin_cases p <;> rfl
  case ldx r | stx r | add r | adc r | sub r | sbc r | and r | xor r | or r | cmp r | inc r | dec r => fin_cases r <;> rfl
  all_goals rfl

theorem wellFormed_decodeOp_zero (op : Byte) : (decodeOp op 0x00 0x00).wellFormed = true := by
  revert op
  decide

/-- The decoder puts the operand bytes into the instruction that the opcode byte alone chooses. -/
theorem decodeOp_eq_withOperands (op b1 b2 : Byte) : decodeOp op b1 b2 = (decodeOp op 0x00 0x00).withOperands b1 b2 := by
  rw [← decodeOp_opcodeOf (wellFormed_decodeOp_zero op), opcodeOf_decodeOp]

/-- What the decoder reads is well-formed. -/
theorem wellFormed_decodeOp (op b1 b2 : Byte) : (decodeOp op b1 b2).wellFormed = true := by
  rw [decodeOp_eq_withOperands, Instr.wellFormed_withOperands, wellFormed_decodeOp_zero]

open Laws.EncodedLength in
/-- The family of Laws/PerInstr.lean over all instructions. -/
theorem length_encode {i : Instr} (h : i.wellFormed = true) : (encode i).length = instrLen (opcodeOf i) := by
  cases i
  exacts [nop h, halt h, di h, ei h, swi h, clc h, sec h, cmc h, ldi _ _ h, ld _ _ h, st _ _ h, ldx _ h, stx _ h,
    ldw _ _ h, incw _ h, decw _ h, ldsp _ h, movsp h, getsp h, illegal3F h, mov _ _ h, add _ h, adc _ h, sub _ h, sbc _ h,
    Laws.EncodedLength.and _ h, Laws.EncodedLength.xor _ h, Laws.EncodedLength.or _ h, cmp _ h, addi _ h, adci _ h,
    subi _ h, sbci _ h, andi _ h, xori _ h, ori _ h, cmpi _ h, beq _ h, bne _ h, bcs _ h, bcc _ h, bmi _ h, bpl _ h,
    bvs _ h, bvc _ h, inc _ h, dec _ h, shl h, shr h, sar h, rcl h, rcr h, Laws.EncodedLength.not h, neg h, swap h,
    push _ h, pop _ h, jmp _ h, call _ h, ret h, reti h, bra _ h, jmpi h, calli h, pushf h, popf h, mul h, div h,
    illegalFB h, illegalFC _ h]

theorem length_operandBytes {i : Instr} (h : i.wellFormed = true) :
    (operandBytes i).length + 1 = instrLen (opcodeOf i) :=
  length_encode h

/-! ## Encoding what was decoded -/

/-- A decoded instruction encodes to its opcode byte and the operand bytes its length announces (30_encoding.md R112). -/
theorem encode_decodeOp (op b1 b2 : Byte) : encode (decodeOp op b1 b2) = [op, b1, b2].take (instrLen op) := by
  have hlength := length_operandBytes (wellFormed_decodeOp_zero op)
  rw [opcodeOf_decodeOp] at hlength
  rw [encode, opcodeOf_decodeOp, decodeOp_eq_withOperands, operandBytes_withOperands, ← hlength, List.take_succ_cons]

theorem length_encode_decodeOp (op b1 b2 : Byte) : (encode (decodeOp op b1 b2)).length = instrLen op := by
  rw [length_encode (wellFormed_decodeOp op b1 b2), opcodeOf_decodeOp]

/-- A well-formed instruction is the one its own bytes decode to. -/
theorem decodeOp_encode {i : Instr} (h : i.wellFormed = true) :
    decodeOp (opcodeOf i) ((operandBytes i).getD 0 0x00) ((operandBytes i).getD 1 0x00) = i := by
  rw [decodeOp_opcodeOf h, Instr.withOperands_operandBytes]

/-- Two well-formed instructions differ in their encodings. -/
theorem encode_injective {i j : Instr} (hi : i.wellFormed = true) (hj : j.wellFormed = true) (h : encode i = encode j) :
    i = j := by
  obtain ⟨hop, hoperands⟩ := List.cons_eq_cons.mp h
  rw [← decodeOp_encode hi, ← decodeOp_encode hj, hop, hoperands]

/-! ## Decoding a list of bytes -/

/-- The list decoder reads the instruction of the bytes its length announces, and leaves the rest. -/
theorem decode_take_append (op b1 b2 : Byte) (rest : List Byte) :
    decode ([op, b1, b2].take (instrLen op) ++ rest) = .ok (decodeOp op b1 b2, rest) := by
  have hsame (c1 c2 : Byte) (h : [op, c1, c2].take (instrLen op) = [op, b1, b2].take (instrLen op)) :
      decodeOp op c1 c2 = decodeOp op b1 b2 :=
    encode_injective (wellFormed_decodeOp ..) (wellFormed_decodeOp ..) (by simpa only [encode_decodeOp] using h)
  rcases instrLen_cases op with hn | hn | hn
  · simpa [decode, hn] using hsame 0x00 0x00 (by rw [hn]; rfl)
  · simpa [decode, hn] using hsame b1 0x00 (by rw [hn]; rfl)
  · simp [decode, hn]

/-- The list decoder answers on those lists alone. -/
theorem decode_inversion {bytes rest : List Byte} {i : Instr} (h : decode bytes = .ok (i, rest)) :
    ∃ op b1 b2, i = decodeOp op b1 b2 ∧ bytes = [op, b1, b2].take (instrLen op) ++ rest := by
  unfold decode at h
  split at h
  · cases h
  · next op more =>
    split at h
    · next hn => cases h; exact ⟨op, 0x00, 0x00, rfl, by simp [hn]⟩
    · next b1 _ hn => cases h; exact ⟨op, b1, 0x00, rfl, by simp [hn]⟩
    · next b1 b2 _ hn => cases h; exact ⟨op, b1, b2, rfl, by simp [hn]⟩
    · cases h

/-- A list as long as its first byte announces begins with an instruction's bytes. -/
theorem exists_take_append {op : Byte} {more : List Byte} (h : instrLen op ≤ more.length + 1) :
    ∃ b1 b2 rest, op :: more = [op, b1, b2].take (instrLen op) ++ rest := by
  rcases instrLen_cases op with hn | hn | hn <;> rw [hn] at h ⊢
  · exact ⟨0x00, 0x00, more, rfl⟩
  · match more with
    | b1 :: rest => exact ⟨b1, 0x00, rest, rfl⟩
  · match more with
    | b1 :: b2 :: rest => exact ⟨b1, b2, rest, rfl⟩

theorem wellFormed_of_decode {bytes rest : List Byte} {i : Instr} (h : decode bytes = .ok (i, rest)) :
    i.wellFormed = true := by
  obtain ⟨op, b1, b2, rfl, -⟩ := decode_inversion h
  exact wellFormed_decodeOp op b1 b2

theorem encode_append_of_decode {bytes rest : List Byte} {i : Instr} (h : decode bytes = .ok (i, rest)) :
    encode i ++ rest = bytes := by
  obtain ⟨op, b1, b2, rfl, rfl⟩ := decode_inversion h
  rw [encode_decodeOp]

/-- The encoding of a well-formed instruction is that of the instruction decoded from its own bytes, so it is read back. -/
theorem decode_encode_append {i : Instr} (h : i.wellFormed = true) (rest : List Byte) :
    decode (encode i ++ rest) = .ok (i, rest) := by
  rw [← decodeOp_encode h, encode_decodeOp, decode_take_append]

theorem decode_encode {i : Instr} (h : i.wellFormed = true) : decode (encode i) = .ok (i, []) := by
  simpa using decode_encode_append h []

/-- Settles O1. -/
theorem decodeOfEncode : Obligations.DecodeOfEncode := by
  unfold Obligations.DecodeOfEncode
  exact fun i rest h => decode_encode_append h rest

/-- Settles O2: the bytes consumed are those the opcode byte announces, which are the encoding. -/
theorem encodeOfDecode : Obligations.EncodeOfDecode := by
  unfold Obligations.EncodeOfDecode
  refine ⟨fun bytes rest i h => ⟨wellFormed_of_decode h, encode_append_of_decode h⟩, fun op more h => ?_⟩
  obtain ⟨b1, b2, rest, hbytes⟩ := exists_take_append h
  exact ⟨_, _, hbytes ▸ decode_take_append op b1 b2 rest⟩

/-! ## The opcode map as data (30_encoding.md R110) -/

/-- No opcode byte is in two rows whose fixed bits differ where both fix them. -/
theorem OpRow.not_has_of_has {r r' : OpRow} {op : Byte} (hdiffer : r.base &&& r'.mask ≠ r'.base &&& r.mask)
    (h : r.has op = true) : r'.has op = false := by
  by_contra h'
  have hbase : op &&& r.mask = r.base := by simpa [OpRow.has] using h
  have hbase' : op &&& r'.mask = r'.base := by simpa [OpRow.has] using h'
  refine hdiffer ?_
  rw [← hbase, ← hbase', BitVec.and_assoc, BitVec.and_assoc, BitVec.and_comm r.mask]

/-- Any two rows of the map differ in a bit that both fix. -/
theorem opcodeMap_pairwise : opcodeMap.Pairwise fun r r' => r.base &&& r'.mask ≠ r'.base &&& r.mask := by
  decide

/-- No two rows of the map hold one opcode byte. -/
theorem opcodeMap_row_unique {op : Byte} {k l : Nat} {r r' : OpRow} (hk : opcodeMap[k]? = some r)
    (hl : opcodeMap[l]? = some r') (hr : r.has op = true) (hr' : r'.has op = true) : k = l := by
  obtain ⟨hklt, rfl⟩ := List.getElem?_eq_some_iff.mp hk
  obtain ⟨hllt, rfl⟩ := List.getElem?_eq_some_iff.mp hl
  have hpair := List.pairwise_iff_getElem.mp opcodeMap_pairwise
  rcases Nat.lt_trichotomy k l with h | h | h
  · exact absurd hr' (by simp [OpRow.not_has_of_has (hpair k l hklt hllt h) hr])
  · exact h
  · exact absurd hr (by simp [OpRow.not_has_of_has (hpair l k hllt hklt h) hr'])

/-- The row of the instruction an opcode byte chooses holds the byte and gives the length it announces. -/
theorem opcodeMap_row_decodeOp (op b1 b2 : Byte) :
    ∃ row, opcodeMap[(decodeOp op b1 b2).row]? = some row ∧ row.has op = true ∧ row.length = instrLen op := by
  have h : ∀ op : Byte, (opcodeMap[(decodeOp op 0x00 0x00).row]?).any
      (fun row => row.has op && row.length == instrLen op) = true := by
    decide
  rw [decodeOp_eq_withOperands, Instr.row_withOperands]
  simpa [Option.any_eq_true] using h op

/-- Settles O3: every byte is in the row of its instruction, and no two rows share a byte. -/
theorem opcodeMapPartition : Obligations.OpcodeMapPartition := by
  unfold Obligations.OpcodeMapPartition
  refine ⟨rfl, fun op b1 b2 => ?_⟩
  obtain ⟨row, hrow, hhas, hlength⟩ := opcodeMap_row_decodeOp op b1 b2
  exact ⟨row, hrow, hhas, hlength.trans (length_encode_decodeOp op b1 b2).symm,
    fun k other hk hother => opcodeMap_row_unique hk hrow hother hhas⟩

/-- Settles O4: the ranges are those of the length the opcode byte announces. -/
theorem instructionLength : Obligations.InstructionLength := by
  unfold Obligations.InstructionLength
  intro op b1 b2
  refine ⟨by rw [encode, opcodeOf_decodeOp, List.head?_cons], ?_⟩
  rw [length_encode_decodeOp]
  simp only [instrLen, ← BitVec.toNat_inj]
  rfl

/-- Settles O5, by decoding each word. -/
theorem decodedWords : Obligations.DecodedWords := by
  unfold Obligations.DecodedWords
  decide

end Sys2Proof
end

section
/-! SUPPORT. The instruction a step executes is the one its bytes at PC decode to (30_encoding.md R114; 60_exceptions.md
R290): whatever the bus answers, from bytes that stand in memory, and from a word placed there (log 9). -/

namespace Sys2Proof.Machine

/-! ## The step of an instruction -/

/-- The bytes of the instruction at PC and the bus after their reads, by its length (30_encoding.md R114). -/
theorem State.code_cases (s : State) :
    (instrLen (s.bus.answer s.cpu.pc) = 1 ∧ s.code = [s.bus.answer s.cpu.pc] ∧
      s.execStart.bus = s.bus.afterRead s.cpu.pc) ∨
    (instrLen (s.bus.answer s.cpu.pc) = 2 ∧
      s.code = [s.bus.answer s.cpu.pc, (s.bus.afterRead s.cpu.pc).answer (s.cpu.pc + 1)] ∧
      s.execStart.bus = (s.bus.afterRead s.cpu.pc).afterRead (s.cpu.pc + 1)) ∨
    (instrLen (s.bus.answer s.cpu.pc) = 3 ∧
      s.code = [s.bus.answer s.cpu.pc, (s.bus.afterRead s.cpu.pc).answer (s.cpu.pc + 1),
        ((s.bus.afterRead s.cpu.pc).afterRead (s.cpu.pc + 1)).answer (s.cpu.pc + 2)] ∧
      s.execStart.bus = ((s.bus.afterRead s.cpu.pc).afterRead (s.cpu.pc + 1)).afterRead (s.cpu.pc + 2)) := by
  have hbus : s.execStart.bus = s.fetched.state.bus := rfl
  rcases s.fetched_cases with ⟨hn, -, -, hs⟩ | ⟨hn, h1, -, hs⟩ | ⟨hn, h1, h2, hs⟩ <;> rw [hs] at hbus
  · exact .inl ⟨hn, by simp [State.code, hn], hbus⟩
  · exact .inr (.inl ⟨hn, by simp [State.code, hn, h1], hbus⟩)
  · exact .inr (.inr ⟨hn, by simp [State.code, hn, h1, h2], hbus⟩)

/-- The observations when the effect of an instruction begins: its opcode byte and the reads of its fetch. -/
theorem State.execStart_obs (s : State) :
    s.execStart.obs =
      { kind := some (.exec (s.bus.answer s.cpu.pc)), cycles := 0,
        trace := s.code.mapIdx fun k v => .read (s.cpu.pc + BitVec.ofNat 16 k) v } := by
  have hcycles : s.execStart.obs.cycles = 0 := by
    have hfetch : s.execStart.obs.cycles = s.fetched.state.obs.cycles := rfl
    rcases s.fetched_cases with ⟨-, -, -, hs⟩ | ⟨-, -, -, hs⟩ | ⟨-, -, -, hs⟩ <;> rw [hfetch, hs] <;> rfl
  calc s.execStart.obs
    _ = { kind := some (.exec (s.bus.answer s.cpu.pc)), cycles := s.execStart.obs.cycles,
          trace := s.execStart.obs.trace } := rfl
    _ = _ := by rw [hcycles, s.execStart_accesses.trace]; rfl

theorem State.execStart_eq (s : State) :
    s.execStart =
      { cpu := { s.cpu with pc := s.cpu.pc + BitVec.ofNat 16 s.code.length, ies := false }, bus := s.execStart.bus,
        obs := { kind := some (.exec (s.bus.answer s.cpu.pc)), cycles := 0,
                 trace := s.code.mapIdx fun k v => .read (s.cpu.pc + BitVec.ofNat 16 k) v } } := by
  rw [← s.execStart_cpu, ← s.execStart_obs]

section
variable {s : State} (hv : s.cpu.variant = ref8Tag) (hh : s.cpu.halted = false) (ha : s.cpu.accepts = false)
include hv hh ha

/-- A step that fetches the bytes of `i`, and leaves the bus as `bus` by that, executes `i`. -/
theorem step_of_code {i : Instr} {code : List Byte} {bus : Bus} (hcode : s.code = code) (hbus : s.execStart.bus = bus)
    (hdecode : decode code = .ok (i, [])) :
    step s = exec i
      { cpu := { s.cpu with pc := s.cpu.pc + BitVec.ofNat 16 code.length, ies := false }, bus := bus,
        obs := { kind := some (.exec (s.bus.answer s.cpu.pc)), cycles := 0,
                 trace := code.mapIdx fun k v => .read (s.cpu.pc + BitVec.ofNat 16 k) v } } := by
  subst hcode hbus
  have hi : s.nextInstr = i := by
    have h := s.decode_code.symm.trans hdecode
    cases h
    rfl
  calc step s
    _ = .next s.executed := step_executes hv ha hh
    _ = exec i s.execStart := by rw [exec_eq_after, State.executed, hi]
    _ = _ := congrArg (exec i) s.execStart_eq

end

/-- Settles O33: the bytes read in turn are the code at PC, length by length. -/
theorem stepRunsDecodedInstruction : Obligations.StepRunsDecodedInstruction := by
  unfold Obligations.StepRunsDecodedInstruction
  intro s i hv hh ha op b1 b2 bus reads hop hreads hdecode
  refine ⟨wellFormed_of_decode hdecode, ?_⟩
  subst hop
  rcases s.code_cases with ⟨hn, hcode, hbus⟩ | ⟨hn, hcode, hbus⟩ | ⟨hn, hcode, hbus⟩ <;> rw [hn] at hreads hdecode ⊢
  · obtain ⟨rfl, rfl⟩ := hreads
    simpa using step_of_code hv hh ha hcode hbus hdecode
  · obtain ⟨rfl, rfl, rfl⟩ := hreads
    simpa using step_of_code hv hh ha hcode hbus hdecode
  · obtain ⟨rfl, rfl, rfl, rfl⟩ := hreads
    simpa using step_of_code hv hh ha hcode hbus hdecode

/-! ## Bytes in memory (20_memory.md R75, R77, R79) -/

/-- The bytes stand in RAM or ROM from the address on, modulo 2^16. -/
def Bus.HoldsAt (b : Bus) (a : Addr) (bytes : List Byte) : Prop :=
  ∀ (k : Nat) (v : Byte), bytes[k]? = some v →
    (b.kindAt (a + BitVec.ofNat 16 k) = .ram ∨ b.kindAt (a + BitVec.ofNat 16 k) = .rom) ∧
    b.mem.byteAt (a + BitVec.ofNat 16 k).toNat = v

theorem Bus.HoldsAt.of_append {b : Bus} {a : Addr} {l m : List Byte} (h : b.HoldsAt a (l ++ m)) : b.HoldsAt a l :=
  fun k v hk => h k v (by rw [List.getElem?_append_left (List.getElem?_eq_some_iff.mp hk).1, hk])

/-- The last byte read is no part of memory. -/
theorem Bus.HoldsAt.withLast {b : Bus} {a : Addr} {bytes : List Byte} (h : b.HoldsAt a bytes) (v : Byte) :
    Bus.HoldsAt { b with last := v } a bytes :=
  h

/-- A read of a byte in memory answers it and notes it. -/
theorem Bus.HoldsAt.read {b : Bus} {a : Addr} {bytes : List Byte} (h : b.HoldsAt a bytes) {k : Nat} {v : Byte}
    (hk : bytes[k]? = some v) :
    b.answer (a + BitVec.ofNat 16 k) = v ∧ b.afterRead (a + BitVec.ofNat 16 k) = { b with last := v } := by
  obtain ⟨hkind, hbyte⟩ := h k v hk
  exact ⟨(Bus.answer_of_memory b _ hkind).trans hbyte, hbyte ▸ Bus.afterRead_of_memory b _ hkind⟩

theorem Bus.HoldsAt.read_first {b : Bus} {a : Addr} {v : Byte} {rest : List Byte} (h : b.HoldsAt a (v :: rest)) :
    b.answer a = v ∧ b.afterRead a = { b with last := v } := by
  simpa using h.read (k := 0) rfl

/-- The fetch of an instruction that stands in memory reads its bytes and changes the bus in the last byte read alone. -/
theorem State.code_of_holdsAt {s : State} {op : Byte} {more : List Byte} (hlength : (op :: more).length = instrLen op)
    (h : s.bus.HoldsAt s.cpu.pc (op :: more)) :
    s.code = op :: more ∧ s.execStart.bus = { s.bus with last := (op :: more).getLastD 0x00 } := by
  obtain ⟨hop, hbus⟩ := h.read_first
  have hsecond (b1 : Byte) (hb1 : more[0]? = some b1) :
      Bus.answer { s.bus with last := op } (s.cpu.pc + 1) = b1 ∧
        Bus.afterRead { s.bus with last := op } (s.cpu.pc + 1) = { s.bus with last := b1 } :=
    (h.withLast op).read (k := 1) hb1
  have hthird (b1 b2 : Byte) (hb2 : more[1]? = some b2) :
      Bus.answer { s.bus with last := b1 } (s.cpu.pc + 2) = b2 ∧
        Bus.afterRead { s.bus with last := b1 } (s.cpu.pc + 2) = { s.bus with last := b2 } :=
    (h.withLast b1).read (k := 2) hb2
  rcases s.code_cases with ⟨hn, hcode, hstart⟩ | ⟨hn, hcode, hstart⟩ | ⟨hn, hcode, hstart⟩ <;>
    rw [hop] at hn <;> rw [hn] at hlength <;> rw [hcode, hstart, hop, hbus]
  · obtain rfl := List.eq_nil_of_length_eq_zero (Nat.succ.inj hlength)
    exact ⟨rfl, rfl⟩
  · obtain ⟨b1, rfl⟩ := List.length_eq_one_iff.mp (Nat.succ.inj hlength)
    obtain ⟨hb1, hbus1⟩ := hsecond b1 rfl
    rw [hb1, hbus1]
    exact ⟨rfl, rfl⟩
  · obtain ⟨b1, b2, rfl⟩ := List.length_eq_two.mp (Nat.succ.inj hlength)
    obtain ⟨hb1, hbus1⟩ := hsecond b1 rfl
    obtain ⟨hb2, hbus2⟩ := hthird b1 b2 rfl
    rw [hb1, hbus1, hb2, hbus2]
    exact ⟨rfl, rfl⟩

/-- Settles O34: the fetch reads the encoding, which decodes to the instruction. -/
theorem stepRunsEncodedInstruction : Obligations.StepRunsEncodedInstruction := by
  unfold Obligations.StepRunsEncodedInstruction
  intro s i hv hh ha hi hmem
  obtain ⟨hcode, hbus⟩ := State.code_of_holdsAt (length_encode hi) hmem
  obtain ⟨hop, -⟩ := Bus.HoldsAt.read_first hmem
  rw [← hop]
  exact step_of_code hv hh ha hcode hbus (decode_encode hi)

/-! ## Placed bytes (log 9) -/

theorem Bus.register_kindAt (b : Bus) (r : Region) (x : Addr) :
    (b.register r).kindAt x = if r.holds x then r.kind else b.kindAt x := by
  cases h : r.holds x <;> simp [Bus.register, Bus.kindAt, h]

theorem Region.holds_single (a x : Addr) (kind : RegionKind) :
    ({ first := a, last := a, kind := kind } : Region).holds x = true ↔ x = a := by
  simp only [Region.holds, Bool.and_eq_true, decide_eq_true_eq]
  exact ⟨fun ⟨h, h'⟩ => BitVec.eq_of_toNat_eq (Nat.le_antisymm h' h), fun h => by simp [h]⟩

theorem Bus.place_mem (b : Bus) (a : Addr) (v : Byte) : (b.place a v).mem = b.mem.store a.toNat v := by
  simp only [Bus.place]
  cases b.kindAt a <;> rfl

/-- A placed byte stands in RAM or ROM; elsewhere nothing of the map changes. -/
theorem Bus.place_kindAt (b : Bus) (a : Addr) (v : Byte) :
    ((b.place a v).kindAt a = .ram ∨ (b.place a v).kindAt a = .rom) ∧
      ∀ x, x ≠ a → (b.place a v).kindAt x = b.kindAt x := by
  have hstored (x : Addr) : ({ b with mem := b.mem.store a.toNat v } : Bus).kindAt x = b.kindAt x :=
    Bus.kindAt_congr rfl x
  simp only [Bus.place]
  cases h : b.kindAt a <;>
    simp +contextual [Bus.register_kindAt, Region.holds_single, hstored, h]

/-- Placing one byte leaves every other address as it was. -/
theorem Bus.place_other (b : Bus) {a x : Addr} (v : Byte) (h : x ≠ a) :
    (b.place a v).kindAt x = b.kindAt x ∧ (b.place a v).mem.byteAt x.toNat = b.mem.byteAt x.toNat := by
  obtain ⟨-, hkind⟩ := b.place_kindAt a v
  refine ⟨hkind x h, ?_⟩
  rw [Bus.place_mem]
  exact Memory.byteAt_store_other _ _ _ _ fun e => h (BitVec.eq_of_toNat_eq e).symm

theorem add_one_add_ofNat (a : Addr) (k : Nat) : a + 1 + BitVec.ofNat 16 k = a + BitVec.ofNat 16 (k + 1) := by
  rw [BitVec.add_assoc, BitVec.add_comm 1, BitVec.ofNat_add]
  rfl

/-- Placing bytes leaves every address it does not reach as it was. -/
theorem Bus.placeBytes_other {bytes : List Byte} {b : Bus} {a x : Addr}
    (h : ∀ k, k < bytes.length → x ≠ a + BitVec.ofNat 16 k) :
    (b.placeBytes a bytes).kindAt x = b.kindAt x ∧
      (b.placeBytes a bytes).mem.byteAt x.toNat = b.mem.byteAt x.toNat := by
  induction bytes generalizing b a with
  | nil => exact ⟨rfl, rfl⟩
  | cons v rest ih =>
    have hfirst : x ≠ a := by simpa using h 0 (Nat.zero_lt_succ _)
    obtain ⟨hkind, hbyte⟩ := b.place_other v hfirst
    obtain ⟨hkind', hbyte'⟩ := ih (b := b.place a v) (a := a + 1) fun k hk => by
      rw [add_one_add_ofNat]
      exact h (k + 1) (Nat.succ_lt_succ hk)
    exact ⟨hkind'.trans hkind, hbyte'.trans hbyte⟩

/-- Placed bytes stand in memory, if there are no more of them than addresses. -/
theorem Bus.placeBytes_holdsAt {bytes : List Byte} {b : Bus} {a : Addr} (hwf : b.mem.wf)
    (hlength : bytes.length ≤ 65536) : (b.placeBytes a bytes).HoldsAt a bytes := by
  induction bytes generalizing b a with
  | nil => exact fun k v hk => by simp at hk
  | cons v rest ih =>
    rw [List.length_cons] at hlength
    have hwf' : (b.place a v).mem.wf := by
      rw [Bus.place_mem]
      exact Memory.store_wf _ _ _ hwf a.isLt
    have hrest := ih (b := b.place a v) (a := a + 1) hwf' (by omega)
    intro k w hk
    cases k with
    | zero =>
      obtain rfl : v = w := Option.some.inj hk
      have hapart : ∀ k, k < rest.length → a ≠ a + 1 + BitVec.ofNat 16 k := by
        intro k hk
        rw [add_one_add_ofNat]
        bv_omega
      obtain ⟨hkind, hbyte⟩ := Bus.placeBytes_other (b := b.place a v) hapart
      obtain ⟨hmemory, -⟩ := b.place_kindAt a v
      rw [BitVec.add_zero]
      refine ⟨by rw [Bus.placeBytes, hkind]; exact hmemory, ?_⟩
      rw [Bus.placeBytes, hbyte, Bus.place_mem]
      exact Memory.byteAt_store_same _ _ _ hwf
    | succ k =>
      rw [← add_one_add_ofNat]
      exact hrest k w hk

/-- A CPU about to fetch accepts no interrupt. -/
theorem Cpu.readyToFetch_accepts (c : Cpu) : c.readyToFetch.accepts = false := by
  cases hi : c.irq <;> cases he : c.ie <;> cases hs : c.ies <;> simp [Cpu.readyToFetch, Cpu.accepts, hi, he, hs]

theorem decode_of_decodeTableWord {nbits w : Nat} {i : Instr} (h : decodeTableWord nbits w = some i) :
    ∃ rest, decode (wordBytes nbits w) = .ok (i, rest) := by
  unfold decodeTableWord at h
  split at h
  · next j rest hj => cases h; exact ⟨rest, hj⟩
  · cases h

/-- Settles O35: the placed bytes stand in memory and begin with the encoding of the instruction. -/
theorem placedWordRuns : Obligations.PlacedWordRuns := by
  unfold Obligations.PlacedWordRuns
  intro s nbits w i hwf hword
  obtain ⟨rest, hdecode⟩ := decode_of_decodeTableWord hword
  have hplaced : (s.withFetchWord nbits w).bus.HoldsAt s.cpu.pc (encode i ++ rest) := by
    rw [encode_append_of_decode hdecode]
    exact Bus.placeBytes_holdsAt hwf (by simp [wordBytes])
  refine ⟨stepRunsEncodedInstruction (s.withFetchWord nbits w) i rfl rfl s.cpu.readyToFetch_accepts
    (wellFormed_of_decode hdecode) hplaced.of_append, fun x h0 h1 h2 => ?_⟩
  obtain ⟨hkind, hbyte⟩ := Bus.placeBytes_other (bytes := wordBytes nbits w) (b := s.bus) (a := s.cpu.pc) (x := x)
    fun k hk => by
      have hk3 : k < 3 := hk
      interval_cases k
      exacts [by simpa using h0, h1, h2]
  exact ⟨hbyte, hkind⟩

end Sys2Proof.Machine
end

section
/-! SUPPORT. The ALU and arithmetic instructions (40_alu.md R130 to R167): each ALU function in terms of integers, the
flag byte it leaves, and the state after each shared effect of the instructions, which changes the CPU record alone. -/

namespace Sys2Proof.Machine

/-! ## Bytes as integers -/

theorem getLsbD_seven (x : Byte) : x.getLsbD 7 = decide (128 ≤ x.toNat) := by
  rw [← BitVec.msb_eq_getLsbD_last, BitVec.msb_eq_decide]

theorem getLsbD_zero_eq_odd (x : Byte) : x.getLsbD 0 = decide (x.toNat % 2 = 1) := by
  rw [← BitVec.testBit_toNat, Nat.testBit_zero]

/-- A signed byte by its unsigned value. -/
theorem toInt_cases (x : Byte) :
    (x.toNat < 128 ∧ x.toInt = x.toNat) ∨ (128 ≤ x.toNat ∧ x.toInt = x.toNat - 256) := by
  rw [BitVec.toInt_eq_toNat_cond]
  split <;> omega

/-- Bytes without a common bit: their union is their sum. -/
theorem toNat_or_of_disjoint {x y : Byte} (h : x &&& y = 0#8) : (x ||| y).toNat = x.toNat + y.toNat := by
  rw [← BitVec.add_eq_or_of_and_eq_zero x y h, BitVec.toNat_add_of_and_eq_zero h]

/-! ## The flag byte -/

theorem flagsAre_packFlags {c v z s : Bool} {C V Z S : Prop} (hc : c = true ↔ C) (hv : v = true ↔ V)
    (hz : z = true ↔ Z) (hs : s = true ↔ S) : FlagsAre (packFlags c v z s) C V Z S := by
  refine ⟨?_, ?_, ?_, ?_, ?_⟩
  · rw [← maskFlags_packFlags, maskFlags_high]
  · rwa [bitC_packFlags]
  · rwa [bitV_packFlags]
  · rwa [bitZ_packFlags]
  · rwa [bitS_packFlags]

/-- The carry flag as a number. -/
theorem FlagsAre.bitC_toNat {f : Byte} {C V Z S : Prop} (h : FlagsAre f C V Z S) :
    C ∧ (bitC f).toNat = 1 ∨ ¬C ∧ (bitC f).toNat = 0 := by
  obtain ⟨-, hc, -, -, -⟩ := h
  cases hf : bitC f
  · exact .inr ⟨fun holds => Bool.false_ne_true (hf.symm.trans (hc.mpr holds)), rfl⟩
  · exact .inl ⟨hc.mp hf, rfl⟩

/-- The flag byte of an ALU result. -/
def AluOut.flags (x : AluOut) : Byte := packFlags x.c x.v x.z x.s

/-- Z and S come from the result (40_alu.md R133), whatever C and V are. -/
theorem flagsAre_aluOut {c v : Bool} {C V : Prop} (res : Byte) (hc : c = true ↔ C) (hv : v = true ↔ V) :
    FlagsAre (aluOut res c v).flags C V (res.toNat = 0) (128 ≤ res.toNat) :=
  flagsAre_packFlags hc hv (by simp [aluOut, ← BitVec.toNat_inj])
    (by simp only [aluOut, getLsbD_seven, decide_eq_true_iff])

/-- The flags of a result that leaves V clear. -/
theorem flagsAre_aluOut_noOverflow {c : Bool} {C : Prop} (res : Byte) (hc : c = true ↔ C) :
    FlagsAre (aluOut res c false).flags C False (res.toNat = 0) (128 ≤ res.toNat) :=
  flagsAre_aluOut res hc (iff_of_eq Bool.false_eq_true)

/-! ## Addition and subtraction (40_alu.md R130, R131) -/

theorem aluAdd_res_toNat (a b : Byte) (cin : Bool) :
    (aluAdd a b cin).res.toNat = (a.toNat + b.toNat + cin.toNat) % 256 :=
  BitVec.toNat_ofNat _ _

theorem aluAdd_c_iff (a b : Byte) (cin : Bool) :
    (aluAdd a b cin).c = true ↔ 255 < a.toNat + b.toNat + cin.toNat :=
  decide_eq_true_iff

/-- The sign rule for V says that the sum of the signed bytes is out of range (10_state.md R39). -/
theorem aluAdd_v_iff (a b : Byte) (cin : Bool) :
    (aluAdd a b cin).v = true ↔ OutsideByte (a.toInt + b.toInt + (cin.toNat : Int)) := by
  have hv : (aluAdd a b cin).v = true ↔
      (128 ≤ a.toNat ↔ 128 ≤ b.toNat) ∧ ¬(128 ≤ (aluAdd a b cin).res.toNat ↔ 128 ≤ a.toNat) := by
    simp only [aluAdd, aluOut, getLsbD_seven, Bool.and_eq_true, beq_iff_eq, bne_iff_ne, ne_eq, decide_eq_decide]
  rw [hv, aluAdd_res_toNat, OutsideByte]
  have hcin := Bool.toNat_le cin
  have ha := toInt_cases a
  have hb := toInt_cases b
  omega

theorem isSum_aluAdd (a b : Byte) (cin : Bool) : IsSum a b cin (aluAdd a b cin).res (aluAdd a b cin).flags :=
  ⟨aluAdd_res_toNat a b cin, flagsAre_aluOut _ (aluAdd_c_iff a b cin) (aluAdd_v_iff a b cin)⟩

/-- The result and the carry together are the exact sum. -/
theorem IsSum.exact {a b x f : Byte} {cin : Bool} (h : IsSum a b cin x f) :
    x.toNat + 256 * (bitC f).toNat = a.toNat + b.toNat + cin.toNat := by
  obtain ⟨hx, hflags⟩ := h
  have hc := hflags.bitC_toNat
  have hcin := Bool.toNat_le cin
  omega

/-- Two byte sums, the carry of the low one passed to the high one, are a 16-bit sum (40_alu.md R167). -/
theorem IsSum.chain {a b x f a' b' y g : Byte} (hlow : IsSum a b false x f) (hhigh : IsSum a' b' (bitC f) y g) :
    y.toNat * 256 + x.toNat = ((a'.toNat * 256 + a.toNat) + (b'.toNat * 256 + b.toNat)) % 65536 ∧
      (bitC g = true ↔ 65536 ≤ (a'.toNat * 256 + a.toNat) + (b'.toNat * 256 + b.toNat)) := by
  have hx : x.toNat + 256 * (bitC f).toNat = a.toNat + b.toNat + 0 := hlow.exact
  have hy := hhigh.exact
  have hc := Bool.toNat_le (bitC g)
  rw [← Bool.toNat_eq_one]
  omega

theorem aluSub_res_toNat (a b : Byte) (bin : Bool) :
    ((aluSub a b bin).res.toNat : Int) = ((a.toNat : Int) - (b.toNat : Int) - (bin.toNat : Int)) % 256 := by
  have h : (aluSub a b bin).res.toNat = (((a.toNat : Int) - (b.toNat : Int) - (bin.toNat : Int)) % 256).toNat :=
    BitVec.toNat_ofInt _
  omega

theorem aluSub_c_iff (a b : Byte) (bin : Bool) : (aluSub a b bin).c = true ↔ a.toNat < b.toNat + bin.toNat := by
  have h : (aluSub a b bin).c = true ↔ (a.toNat : Int) - (b.toNat : Int) - (bin.toNat : Int) < 0 := decide_eq_true_iff
  exact h.trans (by omega)

/-- The sign rule for V says that the difference of the signed bytes is out of range (10_state.md R39). -/
theorem aluSub_v_iff (a b : Byte) (bin : Bool) :
    (aluSub a b bin).v = true ↔ OutsideByte (a.toInt - b.toInt - (bin.toNat : Int)) := by
  have hv : (aluSub a b bin).v = true ↔
      ¬(128 ≤ a.toNat ↔ 128 ≤ b.toNat) ∧ ¬(128 ≤ (aluSub a b bin).res.toNat ↔ 128 ≤ a.toNat) := by
    simp only [aluSub, aluOut, getLsbD_seven, Bool.and_eq_true, bne_iff_ne, ne_eq, decide_eq_decide]
  rw [hv, OutsideByte]
  have hres := aluSub_res_toNat a b bin
  have hbin := Bool.toNat_le bin
  have ha := toInt_cases a
  have hb := toInt_cases b
  omega

theorem isDifference_aluSub (a b : Byte) (bin : Bool) :
    IsDifference a b bin (aluSub a b bin).res (aluSub a b bin).flags :=
  ⟨aluSub_res_toNat a b bin, flagsAre_aluOut _ (aluSub_c_iff a b bin) (aluSub_v_iff a b bin)⟩

section
variable {a b x f : Byte} (h : IsDifference a b false x f)
include h

/-- C after a comparison is the unsigned order (40_alu.md R167). -/
theorem IsDifference.bitC_iff_lt : bitC f = true ↔ a.toNat < b.toNat := by
  obtain ⟨-, -, hc, -, -, -⟩ := h
  exact hc

/-- Z after a comparison is equality (40_alu.md R167). -/
theorem IsDifference.bitZ_iff_eq : bitZ f = true ↔ a = b := by
  obtain ⟨hx, -, -, -, hz, -⟩ := h
  rw [Bool.toNat_false] at hx
  rw [hz, ← BitVec.toNat_inj]
  omega

/-- S and V after a comparison differ exactly when the signed order holds: the difference is negative, or its sign is
wrong because it overflowed (40_alu.md R167). -/
theorem IsDifference.bitS_ne_bitV_iff_lt : bitS f ≠ bitV f ↔ a.toInt < b.toInt := by
  obtain ⟨hx, -, -, hv, -, hs⟩ := h
  rw [Bool.toNat_false] at hx hv
  rw [ne_eq, Bool.eq_iff_iff, hs, hv, OutsideByte]
  have ha := toInt_cases a
  have hb := toInt_cases b
  omega

end

/-! ## Steps by one (40_alu.md R150, R151) -/

theorem aluAdd_one_v_iff (a : Byte) : (aluAdd a 0x01 false).v = true ↔ OutsideByte (a.toInt + 1) := by
  simpa using aluAdd_v_iff a 0x01 false

theorem aluSub_one_v_iff (a : Byte) : (aluSub a 0x01 false).v = true ↔ OutsideByte (a.toInt - 1) := by
  simpa using aluSub_v_iff a 0x01 false

theorem aluSub_one_res_toNat (a : Byte) : (aluSub a 0x01 false).res.toNat = (a.toNat + 255) % 256 := by
  have h : ((aluSub a 0x01 false).res.toNat : Int) = ((a.toNat : Int) - 1 - 0) % 256 := aluSub_res_toNat a 0x01 false
  omega

/-! ## Bitwise operations (40_alu.md R132) -/

theorem isBitwise_aluOut {op : Bool → Bool → Bool} {a b x : Byte}
    (h : ∀ k, x.getLsbD k = op (a.getLsbD k) (b.getLsbD k)) : IsBitwise op a b x (aluOut x false false).flags :=
  ⟨fun k _ => h k, flagsAre_aluOut_noOverflow x (iff_of_eq Bool.false_eq_true)⟩

/-! ## Shifts and rotates (40_alu.md R152 to R156) -/

theorem aluShl_res_toNat (a : Byte) : (aluShl a).res.toNat = 2 * a.toNat % 256 := by
  simp [aluShl, aluOut, Nat.shiftLeft_eq, Nat.mul_comm]

theorem aluShr_res_toNat (a : Byte) : (aluShr a).res.toNat = a.toNat / 2 := by
  simp [aluShr, aluOut, Nat.shiftRight_eq_div_pow]

/-- Bit 7 kept beside the logical shift makes the arithmetic shift (40_alu.md R154). -/
theorem aluSar_res (a : Byte) : (aluSar a).res = a.sshiftRight 1 := by
  revert a; decide

theorem aluSar_res_toInt (a : Byte) : (aluSar a).res.toInt = a.toInt / 2 := by
  rw [aluSar_res, BitVec.toInt_sshiftRight, Int.shiftRight_eq_div_pow]; rfl

theorem aluRcl_res_toNat (a : Byte) (cin : Bool) : (aluRcl a cin).res.toNat = 2 * a.toNat % 256 + cin.toNat := by
  have hdisjoint : (a <<< 1) &&& BitVec.ofNat 8 cin.toNat = 0#8 := by cases cin <;> revert a <;> decide
  have hcin : (BitVec.ofNat 8 cin.toNat).toNat = cin.toNat := by cases cin <;> rfl
  calc (aluRcl a cin).res.toNat
    _ = (a <<< 1).toNat + (BitVec.ofNat 8 cin.toNat).toNat := toNat_or_of_disjoint hdisjoint
    _ = 2 * a.toNat % 256 + cin.toNat := congrArg₂ _ (aluShl_res_toNat a) hcin

theorem aluRcr_res_toNat (a : Byte) (cin : Bool) : (aluRcr a cin).res.toNat = 128 * cin.toNat + a.toNat / 2 := by
  have hdisjoint : (BitVec.ofNat 8 cin.toNat <<< 7) &&& (a >>> 1) = 0#8 := by cases cin <;> revert a <;> decide
  have hcin : (BitVec.ofNat 8 cin.toNat <<< 7).toNat = 128 * cin.toNat := by cases cin <;> rfl
  calc (aluRcr a cin).res.toNat
    _ = (BitVec.ofNat 8 cin.toNat <<< 7).toNat + (a >>> 1).toNat := toNat_or_of_disjoint hdisjoint
    _ = 128 * cin.toNat + a.toNat / 2 := congrArg₂ _ hcin (aluShr_res_toNat a)

/-- The flags of a left shift or rotation: the old bit 7 leaves to C. -/
theorem flagsAre_shiftedLeft (a res : Byte) :
    FlagsAre (aluOut res (a.getLsbD 7) false).flags (128 ≤ a.toNat) False (res.toNat = 0) (128 ≤ res.toNat) :=
  flagsAre_aluOut_noOverflow res (by rw [getLsbD_seven, decide_eq_true_iff])

/-- The flags of a right shift or rotation: the old bit 0 leaves to C. -/
theorem flagsAre_shiftedRight (a res : Byte) :
    FlagsAre (aluOut res (a.getLsbD 0) false).flags (a.toNat % 2 = 1) False (res.toNat = 0) (128 ≤ res.toNat) :=
  flagsAre_aluOut_noOverflow res (by rw [getLsbD_zero_eq_odd, decide_eq_true_iff])

/-- RCL rotates the nine bits C:A left (40_alu.md R155). -/
theorem aluRcl_exact (a : Byte) (cin : Bool) :
    256 * (bitC (aluRcl a cin).flags).toNat + (aluRcl a cin).res.toNat = 2 * a.toNat + cin.toNat := by
  have hflags : FlagsAre (aluRcl a cin).flags (128 ≤ a.toNat) _ _ _ := flagsAre_shiftedLeft a (aluRcl a cin).res
  have hc := hflags.bitC_toNat
  rw [aluRcl_res_toNat]
  omega

/-- RCR rotates the nine bits C:A right (40_alu.md R156). -/
theorem aluRcr_exact (a : Byte) (cin : Bool) :
    2 * (aluRcr a cin).res.toNat + (bitC (aluRcr a cin).flags).toNat = a.toNat + 256 * cin.toNat := by
  have hflags : FlagsAre (aluRcr a cin).flags (a.toNat % 2 = 1) _ _ _ := flagsAre_shiftedRight a (aluRcr a cin).res
  have hc := hflags.bitC_toNat
  rw [aluRcr_res_toNat]
  omega

/-! ## NOT, NEG and SWAP (40_alu.md R157 to R159) -/

theorem notByte_toNat (a : Byte) : (notByte a).toNat = 255 - a.toNat := by
  rw [notByte, show (0xFF : Byte) = BitVec.allOnes 8 from rfl, BitVec.xor_allOnes, BitVec.toNat_not]

theorem aluNeg_res_toNat (a : Byte) : (aluSub 0x00 a false).res.toNat = (256 - a.toNat) % 256 := by
  have h : ((aluSub 0x00 a false).res.toNat : Int) = (0 - (a.toNat : Int) - 0) % 256 := aluSub_res_toNat 0x00 a false
  omega

theorem flagsAre_aluNeg (a : Byte) :
    FlagsAre (aluSub 0x00 a false).flags (a.toNat ≠ 0) (a.toNat = 128) ((aluSub 0x00 a false).res.toNat = 0)
      (128 ≤ (aluSub 0x00 a false).res.toNat) := by
  refine flagsAre_aluOut _ ((aluSub_c_iff 0x00 a false).trans Nat.pos_iff_ne_zero) ((aluSub_v_iff 0x00 a false).trans ?_)
  change OutsideByte (0 - a.toInt - 0) ↔ a.toNat = 128
  have ha := toInt_cases a
  unfold OutsideByte
  omega

theorem swapNibbles_toNat (a : Byte) : (swapNibbles a).toNat = 16 * (a.toNat % 16) + a.toNat / 16 := by
  revert a; decide

/-! ## Multiply and divide (40_alu.md R160, R161) -/

/-- The product of two bytes fits in 16 bits, so it is exact (40_alu.md R160). -/
theorem product_toNat (a b : Byte) : (product a b).toNat = a.toNat * b.toNat := by
  have h : a.toNat * b.toNat < 256 * 256 := Nat.mul_lt_mul'' a.isLt b.isLt
  rw [product, BitVec.toNat_mul, BitVec.toNat_setWidth_of_le (by decide), BitVec.toNat_setWidth_of_le (by decide),
    Nat.mod_eq_of_lt (h : _ < 2 ^ 16)]

theorem lowByte_toNat (v : Addr) : (lowByte v).toNat = v.toNat % 256 := by
  have h := word16_toNat v
  omega

theorem highByte_toNat (v : Addr) : (highByte v).toNat = v.toNat / 256 := by
  have h := word16_toNat v
  omega

theorem flagsAre_productFlags (p : Addr) :
    FlagsAre (productFlags p) ((highByte p).toNat ≠ 0) False (p.toNat = 0) (32768 ≤ p.toNat) := by
  refine flagsAre_packFlags ?_ (iff_of_eq Bool.false_eq_true) ?_ ?_
  · simp [highByte, ← BitVec.toNat_inj]
  · simp [← BitVec.toNat_inj]
  · rw [← BitVec.msb_eq_getLsbD_last, BitVec.msb_eq_decide, decide_eq_true_iff]

/-- What DIV computes, with the zero divisor's own result (40_alu.md R161). -/
theorem divide_spec (n d : Byte) :
    if d.toNat = 0 then
      (divide n d).1.toNat = 255 ∧ (divide n d).2.1 = n ∧ FlagsAre (divide n d).2.2 False True False True
    else (divide n d).1.toNat = n.toNat / d.toNat ∧ (divide n d).2.1.toNat = n.toNat % d.toNat ∧
      FlagsAre (divide n d).2.2 False False ((divide n d).1.toNat = 0) (128 ≤ (divide n d).1.toNat) := by
  by_cases hd : d = 0x00
  · subst hd
    exact ⟨rfl, rfl, flagsAre_packFlags (iff_of_eq Bool.false_eq_true) (iff_of_true rfl trivial)
      (iff_of_eq Bool.false_eq_true) (iff_of_true rfl trivial)⟩
  · have hn : d.toNat ≠ 0 := fun h => hd (BitVec.eq_of_toNat_eq h)
    have hq : divide n d = (n / d, n % d, (aluOut (n / d) false false).flags) := if_neg hd
    rw [if_neg hn, hq]
    exact ⟨BitVec.toNat_udiv, BitVec.toNat_umod, flagsAre_aluOut_noOverflow _ (iff_of_eq Bool.false_eq_true)⟩

theorem maskFlags_divide (n d : Byte) : maskFlags (divide n d).2.2 = (divide n d).2.2 := by
  unfold divide
  split <;> exact maskFlags_packFlags _ _ _ _

/-! ## 16-bit steps (40_alu.md R162, R163) -/

theorem toNat_word16 (hi lo : Byte) : (word16 hi lo).toNat = hi.toNat * 256 + lo.toNat := by
  rw [← word16_toNat, lowByte_word16, highByte_word16]
  omega

theorem halves_toNat (v : Addr) : (highByte v).toNat * 256 + (lowByte v).toNat = v.toNat := by
  rw [← toNat_word16, word16_halves]

/-! ## The state after each shared effect -/

section
variable (s : State)

theorem State.setCVZS_charge_eq (c v z n : Bool) (k : Nat) :
    (s.setCVZS c v z n).charge k = s.afterQuiet { s.cpu with f := packFlags c v z n } k := by
  rw [State.setCVZS, State.setFlags, maskFlags_packFlags]; rfl

theorem next_writeAlu (r : RegIdx) (x : AluOut) (n : Nat) :
    (.next ((s.writeAlu r x).charge n) : Host.Outcome State Fault Refusal) =
      .next (s.afterQuiet { s.cpu with regs := s.cpu.regs.set r.val x.res, f := x.flags } n) :=
  congrArg _ ((s.setReg r x.res).setCVZS_charge_eq x.c x.v x.z x.s n)

/-- Keeping C is writing C as it was (40_alu.md R133). -/
theorem next_writeAluKeepC (r : RegIdx) (x : AluOut) (n : Nat) :
    (.next ((s.writeAluKeepC r x).charge n) : Host.Outcome State Fault Refusal) =
      .next (s.afterQuiet
        { s.cpu with regs := s.cpu.regs.set r.val x.res, f := AluOut.flags { x with c := s.flagC } } n) :=
  next_writeAlu s r { x with c := s.flagC } n

theorem next_compareAlu (x : AluOut) (n : Nat) :
    (.next ((s.compareAlu x).charge n) : Host.Outcome State Fault Refusal) =
      .next (s.afterQuiet { s.cpu with f := x.flags } n) :=
  congrArg _ (s.setCVZS_charge_eq x.c x.v x.z x.s n)

/-- Writing a pair and Z from its value keeps C, V and S (40_alu.md R162, R163). -/
theorem next_stepPair (p : PairIdx) (v : Addr) (n : Nat) :
    ∃ f, FlagsAre f (s.flagC = true) (s.flagV = true) ((highByte v).toNat * 256 + (lowByte v).toNat = 0)
        (s.flagS = true) ∧
      (.next (((s.setPair p v).setZ (v == 0x0000)).charge n) : Host.Outcome State Fault Refusal) =
        .next (s.afterQuiet { s.cpu with
          regs := (s.cpu.regs.set (pairHigh p).val (highByte v)).set (pairLow p).val (lowByte v), f := f } n) := by
  refine ⟨_, ?_, congrArg _ ((s.setPair p v).setCVZS_charge_eq s.flagC s.flagV (v == 0x0000) s.flagS n)⟩
  refine flagsAre_packFlags Iff.rfl Iff.rfl ?_ Iff.rfl
  rw [halves_toNat, beq_iff_eq, ← BitVec.toNat_inj]
  rfl

/-- Writing C alone keeps V, Z and S (40_alu.md R133). -/
theorem next_setC {c : Bool} {C : Prop} (hc : c = true ↔ C) (n : Nat) :
    ∃ f, FlagsAre f C (s.flagV = true) (s.flagZ = true) (s.flagS = true) ∧
      (.next ((s.setC c).charge n) : Host.Outcome State Fault Refusal) = .next (s.afterQuiet { s.cpu with f := f } n) :=
  ⟨_, flagsAre_packFlags hc Iff.rfl Iff.rfl Iff.rfl, congrArg _ (s.setCVZS_charge_eq _ _ _ _ n)⟩

theorem State.setReg_flagC (r : RegIdx) (v : Byte) : (s.setReg r v).flagC = s.flagC := rfl

@[simp] theorem State.afterQuiet_reg (c : Cpu) (n : Nat) (r : RegIdx) : (s.afterQuiet c n).reg r = c.regs[r.val] := rfl
@[simp] theorem State.afterQuiet_flagC (c : Cpu) (n : Nat) : (s.afterQuiet c n).flagC = bitC c.f := bitC_maskFlags _
@[simp] theorem State.afterQuiet_flagV (c : Cpu) (n : Nat) : (s.afterQuiet c n).flagV = bitV c.f := bitV_maskFlags _
@[simp] theorem State.afterQuiet_flagZ (c : Cpu) (n : Nat) : (s.afterQuiet c n).flagZ = bitZ c.f := bitZ_maskFlags _
@[simp] theorem State.afterQuiet_flagS (c : Cpu) (n : Nat) : (s.afterQuiet c n).flagS = bitS c.f := bitS_maskFlags _

end

end Sys2Proof.Machine
end

section
/-! SUPPORT. The claims about the ALU and arithmetic instructions (40_alu.md R130 to R167): each instruction is one ALU
function and one shared effect, and its result is the lemma about the function with the lemma about the effect. -/

namespace Sys2Proof.Machine

/-- Settles O6: one argument for the four instructions, `aluAdd` written to R0. -/
theorem addFamilyResults : Obligations.AddFamilyResults := by
  unfold Obligations.AddFamilyResults
  intro s
  refine ⟨fun r => ?add, fun r => ?adc, fun imm => ?addi, fun imm => ?adci⟩
  all_goals exact ⟨rfl, _, _, isSum_aluAdd _ _ _, next_writeAlu _ _ _ _⟩

/-- Settles O7: `aluSub`, written to R0 or compared only. -/
theorem subFamilyResults : Obligations.SubFamilyResults := by
  unfold Obligations.SubFamilyResults
  intro s
  refine ⟨fun r => ?sub, fun r => ?sbc, fun r => ?cmp, fun imm => ?subi, fun imm => ?sbci, fun imm => ?cmpi⟩
  case cmp | cmpi => exact ⟨rfl, _, _, isDifference_aluSub _ _ _, next_compareAlu _ _ _⟩
  all_goals exact ⟨rfl, _, _, isDifference_aluSub _ _ _, next_writeAlu _ _ _ _⟩

/-- Settles O8: the bits of each result, written to R0 with C and V clear. -/
theorem logicFamilyResults : Obligations.LogicFamilyResults := by
  unfold Obligations.LogicFamilyResults
  intro s
  refine ⟨fun r => ?and, fun r => ?xor, fun r => ?or, fun imm => ?andi, fun imm => ?xori, fun imm => ?ori⟩
  case and | andi => exact ⟨rfl, _, _, isBitwise_aluOut fun _ => BitVec.getLsbD_and, next_writeAlu _ _ _ _⟩
  case xor | xori => exact ⟨rfl, _, _, isBitwise_aluOut fun _ => BitVec.getLsbD_xor, next_writeAlu _ _ _ _⟩
  case or | ori => exact ⟨rfl, _, _, isBitwise_aluOut fun _ => BitVec.getLsbD_or, next_writeAlu _ _ _ _⟩

/-- Settles O9: CMP leaves the flags of a difference, and those order its operands. -/
theorem compareOrders : Obligations.CompareOrders := by
  unfold Obligations.CompareOrders
  intro s r
  obtain ⟨-, -, hcmp, -⟩ := subFamilyResults s
  obtain ⟨-, x, f, hdiff, hexec⟩ := hcmp r
  refine ⟨_, hexec, ?_, ?_, ?_⟩
  · rw [State.afterQuiet_flagC]; exact hdiff.bitC_iff_lt
  · rw [State.afterQuiet_flagZ]; exact hdiff.bitZ_iff_eq
  · rw [State.afterQuiet_flagS, State.afterQuiet_flagV]; exact hdiff.bitS_ne_bitV_iff_lt

/-- Settles O10: ADCI reads the carry that ADDI left, since writing A does not touch F. -/
theorem chainedAddition : Obligations.ChainedAddition := by
  unfold Obligations.ChainedAddition
  intro s hi0 lo hi
  obtain ⟨-, -, haddi, -⟩ := addFamilyResults s
  obtain ⟨-, x, f, hlow, hexec⟩ := haddi lo
  have ht := exec_eq_next_iff.mp hexec
  have hresult : (s.after (.addi lo)).reg 0 = x := by simp [← ht]
  have hcarry : ((s.after (.addi lo)).setReg 0 hi0).flagC = bitC f := by
    rw [State.setReg_flagC, ← ht, State.afterQuiet_flagC]
  obtain ⟨-, -, -, hadci⟩ := addFamilyResults ((s.after (.addi lo)).setReg 0 hi0)
  obtain ⟨-, y, g, hhigh, hexec'⟩ := hadci hi
  rw [hcarry, State.setReg_reg_same] at hhigh
  refine ⟨_, _, exec_eq_after _ s, hexec', ?_⟩
  rw [State.afterQuiet_flagC, hresult]
  simpa using hlow.chain hhigh

/-- Settles O11: INC and DEC add and subtract 1 and keep C. -/
theorem incDecResults : Obligations.IncDecResults := by
  unfold Obligations.IncDecResults
  intro s
  refine ⟨fun r => ?inc, fun r => ?dec⟩
  case inc =>
    exact ⟨rfl, (aluAdd (s.reg r) 0x01 false).res, _, aluAdd_res_toNat _ _ _,
      flagsAre_aluOut _ Iff.rfl (aluAdd_one_v_iff _), next_writeAluKeepC _ _ _ _⟩
  case dec =>
    exact ⟨rfl, (aluSub (s.reg r) 0x01 false).res, _, aluSub_one_res_toNat _,
      flagsAre_aluOut _ Iff.rfl (aluSub_one_v_iff _), next_writeAluKeepC _ _ _ _⟩

/-- Settles O12: each shift by the value of its result and the bit that leaves to C. -/
theorem shiftResults : Obligations.ShiftResults := by
  unfold Obligations.ShiftResults
  intro s
  refine ⟨?shl, ?shr, ?sar, ?rcl, ?rcr⟩
  case shl => exact ⟨rfl, _, _, aluShl_res_toNat _, flagsAre_shiftedLeft _ _, next_writeAlu _ _ _ _⟩
  case shr => exact ⟨rfl, _, _, aluShr_res_toNat _, flagsAre_shiftedRight _ _, next_writeAlu _ _ _ _⟩
  case sar => exact ⟨rfl, _, _, aluSar_res_toInt _, flagsAre_shiftedRight _ _, next_writeAlu _ _ _ _⟩
  case rcl => exact ⟨rfl, _, _, aluRcl_exact _ _, flagsAre_shiftedLeft _ _, next_writeAlu _ _ _ _⟩
  case rcr => exact ⟨rfl, _, _, aluRcr_exact _ _, flagsAre_shiftedRight _ _, next_writeAlu _ _ _ _⟩

/-- Settles O13: NOT and SWAP keep C, NEG has the flags of 0 - A. -/
theorem unaryResults : Obligations.UnaryResults := by
  unfold Obligations.UnaryResults
  intro s
  refine ⟨?not, ?neg, ?swap⟩
  case not =>
    exact ⟨rfl, _, _, notByte_toNat _, flagsAre_aluOut_noOverflow _ Iff.rfl, next_writeAluKeepC s 0 _ 1⟩
  case neg => exact ⟨rfl, _, _, aluNeg_res_toNat _, flagsAre_aluNeg _, next_writeAlu _ _ _ _⟩
  case swap =>
    exact ⟨rfl, _, _, swapNibbles_toNat _, flagsAre_aluOut_noOverflow _ Iff.rfl, next_writeAluKeepC s 0 _ 1⟩

/-- Settles O14: the halves of the exact product, and the two cases of a division. -/
theorem mulDivResults : Obligations.MulDivResults := by
  unfold Obligations.MulDivResults
  intro s
  refine ⟨?mul, ?div⟩
  case mul =>
    rw [← product_toNat]
    refine ⟨rfl, _, _, _, lowByte_toNat _, highByte_toNat _, flagsAre_productFlags _, ?_⟩
    rw [Vector.set_comm _ _ Nat.zero_ne_one]
    exact congrArg _ ((s.setPair 0 (product (s.reg 0) (s.reg 1))).setCVZS_charge_eq _ _ _ _ 8)
  case div =>
    refine ⟨rfl, _, _, _, divide_spec (s.reg 0) (s.reg 1), ?_⟩
    rw [← maskFlags_divide]
    rfl

/-- Settles O15: the pair is stepped modulo 2^16 and Z alone is set. -/
theorem incwDecwResults : Obligations.IncwDecwResults := by
  unfold Obligations.IncwDecwResults
  intro s
  refine ⟨fun p => ?incw, fun p => ?decw⟩
  case incw =>
    obtain ⟨f, hflags, hexec⟩ := next_stepPair s p (s.pair p + 1) 2
    refine ⟨rfl, _, _, f, ?_, hflags, hexec⟩
    rw [halves_toNat, ← toNat_word16]
    exact BitVec.toNat_add _ _
  case decw =>
    obtain ⟨f, hflags, hexec⟩ := next_stepPair s p (s.pair p - 1) 2
    refine ⟨rfl, _, _, f, ?_, hflags, hexec⟩
    rw [halves_toNat, ← toNat_word16, Nat.add_comm]
    exact BitVec.toNat_sub _ _

/-- Settles O16: C alone is written. -/
theorem carryFlagResults : Obligations.CarryFlagResults := by
  unfold Obligations.CarryFlagResults
  intro s
  refine ⟨⟨rfl, ?clc⟩, ⟨rfl, ?sec⟩, ⟨rfl, ?cmc⟩⟩
  case clc => exact next_setC s (iff_of_eq Bool.false_eq_true) 1
  case sec => exact next_setC s (iff_of_true rfl trivial) 1
  case cmc => exact next_setC s (iff_of_eq (Bool.not_eq_true' _)) 1

end Sys2Proof.Machine
end

section
/-! SUPPORT. The effects of the data movement instructions (41_data_movement.md R190 to R207): what a read answers after the
accesses before it, and each shared effect as a next state. -/

namespace Sys2Proof.Machine

/-! ## Answers after accesses (20_memory.md R75) -/

/-- A byte written to RAM is what a read there answers. -/
theorem Bus.answer_write_same {b : Bus} {a : Addr} (hwf : b.mem.wf) (hram : b.kindAt a = .ram) (v : Byte) :
    (b.write a v).answer a = v := by
  rw [Bus.answer_of_memory _ _ (.inl ((b.write_kindAt a v a).trans hram))]
  exact Bus.write_byteAt_same hwf hram v

/-- A write elsewhere leaves the answer of an address in RAM or ROM. -/
theorem Bus.answer_write_other {b : Bus} {a x : Addr} (hx : b.kindAt x = .ram ∨ b.kindAt x = .rom) (h : a ≠ x)
    (v : Byte) : (b.write a v).answer x = b.answer x := by
  rw [Bus.answer_of_memory b x hx, Bus.answer_of_memory _ x (by rwa [Bus.write_kindAt])]
  exact b.write_byteAt_other a x v h

/-- A read leaves the answer of an address in RAM or ROM. -/
theorem Bus.answer_afterRead {b : Bus} {x : Addr} (hx : b.kindAt x = .ram ∨ b.kindAt x = .rom) (a : Addr) :
    (b.afterRead a).answer x = b.answer x := by
  rw [Bus.answer_of_memory b x hx, Bus.answer_of_memory _ x (by rwa [Bus.afterRead_kindAt]), Bus.afterRead_mem]

/-- Two bytes written to RAM at different addresses are answered in the opposite order. -/
theorem Bus.answers_write_write {b : Bus} {a c : Addr} (hwf : b.mem.wf) (ha : b.kindAt a = .ram)
    (hc : b.kindAt c = .ram) (h : c ≠ a) (v w : Byte) :
    ((b.write a v).write c w).answer c = w ∧ (((b.write a v).write c w).afterRead c).answer a = v := by
  have ha' : (b.write a v).kindAt a = .ram := by rwa [Bus.write_kindAt]
  have hc' : (b.write a v).kindAt c = .ram := by rwa [Bus.write_kindAt]
  refine ⟨Bus.answer_write_same (b.write_wf a v hwf) hc' w, ?_⟩
  rw [Bus.answer_afterRead (.inl (by rwa [Bus.write_kindAt])), Bus.answer_write_other (.inl ha') h]
  exact Bus.answer_write_same hwf ha v

/-! ## The stack (41_data_movement.md R190 to R193) -/

/-- With RAM at both bytes a pushed word is popped again, and the CPU record is as before (41_data_movement.md R193). -/
theorem State.pop16_push16 {s : State} (hwf : s.bus.mem.wf) (hhigh : s.bus.kindAt (s.cpu.sp - 1) = .ram)
    (hlow : s.bus.kindAt (s.cpu.sp - 2) = .ram) (v : Addr) :
    (s.push16 v).pop16.1 = v ∧ (s.push16 v).pop16.2.cpu = s.cpu := by
  have hnext : s.cpu.sp - 2 + 1 = s.cpu.sp - 1 := by bv_omega
  have hback : s.cpu.sp - 2 + 2 = s.cpu.sp := by bv_omega
  have hapart : s.cpu.sp - 2 ≠ s.cpu.sp - 1 := by bv_omega
  obtain ⟨hanswerLow, hanswerHigh⟩ := Bus.answers_write_write hwf hhigh hlow hapart (highByte v) (lowByte v)
  rw [State.push16_eq, State.pop16_eq]
  simp only [hnext, hback, hanswerLow, hanswerHigh, word16_halves, and_self]

/-! ## Operands -/

/-- An instruction with a 16-bit operand is encoded with the low byte first (30_encoding.md R106). -/
theorem encode_word16 {i : Instr} {hi lo : Byte} (h : operandBytes i = bytes16 (word16 hi lo)) :
    encode i = [opcodeOf i, lo, hi] :=
  congrArg (List.cons (opcodeOf i)) (h.trans (bytes16_imm16 lo hi))

/-- The high byte of a word goes to the odd register of a pair (10_state.md R32). -/
theorem State.setPair_word16 (s : State) (p : PairIdx) (hi lo : Byte) :
    s.setPair p (word16 hi lo) = { s with cpu := { s.cpu with
      regs := (s.cpu.regs.set (pairHigh p).val hi).set (pairLow p).val lo } } := by
  rw [State.setPair, highByte_word16, lowByte_word16]
  rfl

/-! ## Loads and stores (41_data_movement.md R196 to R199) -/

section
variable {i : Instr} {s : State} {r : RegIdx} {a : Addr} {n : Nat}

/-- An instruction that reads one byte into a register (41_data_movement.md R196, R198). -/
theorem load_result (hexec : exec i s = .next (((s.memRead a).2.setReg r (s.memRead a).1).charge n)) :
    ∃ t, exec i s = .next t ∧
      t = s.afterAccess { s.cpu with regs := s.cpu.regs.set r.val (s.bus.answer a) } n (s.bus.afterRead a)
        [.read a (s.bus.answer a)] ∧
      (∀ x, t.memByte x = s.memByte x) ∧
      (s.bus.kindAt a = .ram ∨ s.bus.kindAt a = .rom → t.reg r = s.memByte a) := by
  refine ⟨_, hexec, rfl, fun x => ?memory, fun hkind => ?value⟩
  case memory => exact congrArg (Memory.byteAt · x.toNat) (s.bus.afterRead_mem a)
  case value =>
    calc _ = s.bus.answer a := State.setReg_reg_same _ r _
      _ = s.memByte a := Bus.answer_of_memory s.bus a hkind

/-- An instruction that writes one register to the bus (41_data_movement.md R197, R199). -/
theorem store_result (hexec : exec i s = .next ((s.memWrite a (s.reg r)).charge n)) :
    ∃ t, exec i s = .next t ∧
      t = s.afterAccess s.cpu n (s.bus.write a (s.reg r)) [.write a (s.reg r)] ∧
      (∀ x, x ≠ a → t.memByte x = s.memByte x) ∧
      (s.bus.mem.wf → s.bus.kindAt a = .ram → t.memByte a = s.reg r) ∧
      (s.bus.kindAt a = .rom ∨ s.bus.kindAt a = .unmapped → t.bus = s.bus) :=
  ⟨_, hexec, rfl, fun x hx => s.bus.write_byteAt_other a x _ hx.symm,
    fun hwf hram => Bus.write_byteAt_same hwf hram _, fun hkind => Bus.write_ignored hkind _⟩

end

/-! ## Stack instructions (41_data_movement.md R204 to R207) -/

/-- A byte of memory that is none of the instruction's writes in the access table is unchanged. -/
theorem exec_memByte_of_not_written {i : Instr} {s t : State} (h : exec i s = .next t) {x : Addr}
    (hx : Access.write x ∉ dataAccesses s i) : t.memByte x = s.memByte x := by
  rw [exec_eq_next_iff.mp h]
  exact State.after_memByte hx

theorem State.push16_pair_charge_eq (s : State) (p : PairIdx) (n : Nat) :
    (s.push16 (s.pair p)).charge n = s.afterAccess { s.cpu with sp := s.cpu.sp - 2 } n
      ((s.bus.write (s.cpu.sp - 1) (s.reg (pairHigh p))).write (s.cpu.sp - 2) (s.reg (pairLow p)))
      [.write (s.cpu.sp - 1) (s.reg (pairHigh p)), .write (s.cpu.sp - 2) (s.reg (pairLow p))] := by
  rw [State.push16_eq, State.pair, highByte_word16, lowByte_word16]
  rfl

theorem State.pop16_setPair_charge_eq (s : State) (p : PairIdx) (n : Nat) :
    (s.pop16.2.setPair p s.pop16.1).charge n = s.afterAccess
      { s.cpu with
        regs := (s.cpu.regs.set (pairHigh p).val ((s.bus.afterRead s.cpu.sp).answer (s.cpu.sp + 1))).set
          (pairLow p).val (s.bus.answer s.cpu.sp),
        sp := s.cpu.sp + 2 } n
      ((s.bus.afterRead s.cpu.sp).afterRead (s.cpu.sp + 1))
      [.read s.cpu.sp (s.bus.answer s.cpu.sp),
       .read (s.cpu.sp + 1) ((s.bus.afterRead s.cpu.sp).answer (s.cpu.sp + 1))] := by
  rw [State.pop16_eq, State.setPair_word16]
  rfl

end Sys2Proof.Machine
end

section
/-! SUPPORT. The claims about data movement (41_data_movement.md R190 to R207): the moves, the loads and stores and the stack;
each instruction is one shared effect. -/

namespace Sys2Proof.Machine

/-- Settles O17: LDW splits its immediate into the registers of the pair; the others write one value as it is. -/
theorem registerMoveResults : Obligations.RegisterMoveResults := by
  unfold Obligations.RegisterMoveResults
  intro s
  refine ⟨fun d r => ⟨rfl, rfl⟩, fun r imm => ⟨rfl, rfl⟩, fun p hi lo => ⟨?ldwEncoding, ?ldw⟩,
    fun hi lo => ⟨?ldspEncoding, rfl⟩, ⟨rfl, rfl⟩, ⟨rfl, rfl⟩⟩
  case ldwEncoding | ldspEncoding => exact encode_word16 rfl
  case ldw =>
    exact congrArg (fun t => (.next (State.charge t 3) : Host.Outcome State Fault Refusal)) (s.setPair_word16 p hi lo)

/-- Settles O18: LD and LDX are one load, at abs16 and at P3 as it stands before the register is written. -/
theorem loadResults : Obligations.LoadResults := by
  unfold Obligations.LoadResults
  intro s
  exact ⟨fun r hi lo => ⟨encode_word16 rfl, load_result rfl⟩, fun r => ⟨rfl, load_result rfl⟩⟩

/-- Settles O19: ST and STX are one store, at abs16 and at P3. -/
theorem storeResults : Obligations.StoreResults := by
  unfold Obligations.StoreResults
  intro s
  exact ⟨fun r hi lo => ⟨encode_word16 rfl, store_result rfl⟩, fun r => ⟨rfl, store_result rfl⟩⟩

/-- Settles O20: the last clause, that pop16 undoes push16, is `State.pop16_push16`. -/
theorem stackPrimitives : Obligations.StackPrimitives := by
  unfold Obligations.StackPrimitives
  intro s
  refine ⟨s.push8_eq, fun hi lo => ?push16, s.pop8_eq, ⟨_, _, rfl, rfl, s.pop16_eq⟩, State.pop16_push16⟩
  case push16 => rw [State.push16_eq, highByte_word16, lowByte_word16]

/-- Settles O21: the bytes pushed are the writes of the access table, so no other byte changes. -/
theorem pushResults : Obligations.PushResults := by
  unfold Obligations.PushResults
  intro s
  refine ⟨fun p => ⟨rfl, _, rfl, s.push16_pair_charge_eq p 3, fun x hhigh hlow => ?push⟩,
    rfl, _, rfl, rfl, fun x hx => ?pushf⟩
  case push => exact exec_memByte_of_not_written (i := .push p) rfl (by simpa [dataAccesses] using And.intro hhigh hlow)
  case pushf => exact exec_memByte_of_not_written (i := .pushf) rfl (by simpa [dataAccesses] using hx)

/-- Settles O22: the access table has no write for POP and POPF, so no byte of memory changes. -/
theorem popResults : Obligations.PopResults := by
  unfold Obligations.PopResults
  intro s
  refine ⟨fun p => ⟨rfl, _, _, _, rfl, rfl, rfl, s.pop16_setPair_charge_eq p 3, fun x => ?pop⟩,
    rfl, _, rfl, rfl, fun x => ?popf⟩
  case pop => exact exec_memByte_of_not_written (i := .pop p) rfl (by simp [dataAccesses])
  case popf => exact exec_memByte_of_not_written (i := .popf) rfl (by simp [dataAccesses])

end Sys2Proof.Machine
end

section
/-! SUPPORT. The effects of the control transfer instructions (42_control_transfer.md R230 to R245): the relative target in
terms of integers, and branch, call and return as next states. -/

namespace Sys2Proof.Machine

/-! ## Relative branches (42_control_transfer.md R232 to R240) -/

/-- The sign-extended offset is added modulo 2^16 (30_encoding.md R105). -/
theorem relTarget_eq_ofInt (next : Addr) (rel : Byte) :
    relTarget next rel = BitVec.ofInt 16 ((next.toNat : Int) + rel.toInt) := by
  rw [BitVec.ofInt_add, BitVec.ofInt_natCast, BitVec.ofNat_toNat, BitVec.setWidth_eq]
  rfl

theorem State.branchIf_eq_afterBranch (s : State) (taken : Bool) (rel : Byte) :
    s.branchIf taken rel = s.afterBranch taken rel := by
  rw [State.afterBranch, ← relTarget_eq_ofInt]
  rfl

/-- A branch whose condition field selects `taken` (30_encoding.md R108) ends in the branch state of `taken`. -/
theorem branch_result {i : Instr} {s : State} {c : Fin 8} {rel : Byte} {taken : Bool}
    (hexec : exec i s = .next (s.branchIf (cond c s.flags) rel)) (hcond : cond c s.flags = taken) :
    exec i s = .next (s.afterBranch taken rel) := by
  rw [hexec, hcond, State.branchIf_eq_afterBranch]

/-! ## Calls (42_control_transfer.md R243, R244) -/

theorem State.push16_setPC_charge_eq (s : State) (ret target : Addr) (n : Nat) :
    ((s.push16 ret).setPC target).charge n = s.afterAccess { s.cpu with sp := s.cpu.sp - 2, pc := target } n
      ((s.bus.write (s.cpu.sp - 1) (highByte ret)).write (s.cpu.sp - 2) (lowByte ret))
      [.write (s.cpu.sp - 1) (highByte ret), .write (s.cpu.sp - 2) (lowByte ret)] := by
  rw [State.push16_eq]
  rfl

/-- An instruction that pushes PC and jumps; the bytes it pushes are its only writes. -/
theorem call_result {i : Instr} {s : State} {target : Addr} {n : Nat}
    (hexec : exec i s = .next (((s.push16 s.cpu.pc).setPC target).charge n))
    (haccesses : dataAccesses s i = [.write (s.cpu.sp - 1), .write (s.cpu.sp - 2)]) :
    ∃ t, exec i s = .next t ∧
      t = s.afterAccess { s.cpu with sp := s.cpu.sp - 2, pc := target } n
        ((s.bus.write (s.cpu.sp - 1) (highByte s.cpu.pc)).write (s.cpu.sp - 2) (lowByte s.cpu.pc))
        [.write (s.cpu.sp - 1) (highByte s.cpu.pc), .write (s.cpu.sp - 2) (lowByte s.cpu.pc)] ∧
      (∀ x, x ≠ s.cpu.sp - 1 → x ≠ s.cpu.sp - 2 → t.memByte x = s.memByte x) := by
  refine ⟨_, hexec, s.push16_setPC_charge_eq s.cpu.pc target n, fun x hhigh hlow => ?_⟩
  exact exec_memByte_of_not_written hexec (by simpa [haccesses] using And.intro hhigh hlow)

/-! ## Return (42_control_transfer.md R245) -/

theorem State.pop16_setPC_charge_eq (s : State) (n : Nat) :
    (s.pop16.2.setPC s.pop16.1).charge n = s.afterAccess
      { s.cpu with
        pc := word16 ((s.bus.afterRead s.cpu.sp).answer (s.cpu.sp + 1)) (s.bus.answer s.cpu.sp), sp := s.cpu.sp + 2 } n
      ((s.bus.afterRead s.cpu.sp).afterRead (s.cpu.sp + 1))
      [.read s.cpu.sp (s.bus.answer s.cpu.sp),
       .read (s.cpu.sp + 1) ((s.bus.afterRead s.cpu.sp).answer (s.cpu.sp + 1))] := by
  rw [State.pop16_eq]
  rfl

/-- With RAM at both bytes RET undoes a call: beside its push a call writes only PC and the cycles, and the word pushed is
popped again. -/
theorem ret_after_call {i : Instr} {s t u : State} {target : Addr} {n : Nat} (hwf : s.bus.mem.wf)
    (hhigh : s.bus.kindAt (s.cpu.sp - 1) = .ram) (hlow : s.bus.kindAt (s.cpu.sp - 2) = .ram)
    (hexec : exec i s = .next (((s.push16 s.cpu.pc).setPC target).charge n)) (hcall : exec i s = .next t)
    (hret : exec .ret t = .next u) :
    u.cpu.pc = s.cpu.pc ∧ u.cpu.sp = s.cpu.sp ∧ u.cpu.regs = s.cpu.regs ∧ u.cpu.f = s.cpu.f := by
  obtain ⟨hword, hcpu⟩ := State.pop16_push16 hwf hhigh hlow s.cpu.pc
  cases hexec.symm.trans hcall
  cases hret
  exact ⟨hword, (congrArg Cpu.sp hcpu :), (congrArg Cpu.regs hcpu :), (congrArg Cpu.f hcpu :)⟩

end Sys2Proof.Machine
end

section
/-! SUPPORT. The claims about control transfer (42_control_transfer.md R232 to R245): the branches, the jumps, the calls and
the return; each instruction is one shared effect. -/

namespace Sys2Proof.Machine

/-- Settles O23: one argument for the eight branches, whose condition fields select the flags. -/
theorem conditionalBranchResults : Obligations.ConditionalBranchResults := by
  unfold Obligations.ConditionalBranchResults
  intro s rel
  refine ⟨?beq, ?bne, ?bcs, ?bcc, ?bmi, ?bpl, ?bvs, ?bvc⟩
  all_goals exact ⟨rfl, branch_result rfl rfl⟩

/-- Settles O24: BRA is a branch that is taken; JMP and JMPI write PC, from abs16 and from P3. -/
theorem jumpResults : Obligations.JumpResults := by
  unfold Obligations.JumpResults
  intro s
  refine ⟨fun rel => ⟨rfl, ?bra⟩, fun hi lo => ⟨encode_word16 rfl, rfl⟩, rfl, rfl⟩
  case bra => exact congrArg Host.Outcome.next (s.branchIf_eq_afterBranch true rel)

/-- Settles O25: CALL and CALLI are one call, to abs16 and to P3. -/
theorem callResults : Obligations.CallResults := by
  unfold Obligations.CallResults
  intro s
  exact ⟨fun hi lo => ⟨encode_word16 rfl, call_result rfl rfl⟩, rfl, call_result rfl rfl⟩

/-- Settles O26: the access table has no write for RET, and RET undoes either call by `ret_after_call`. -/
theorem retResult : Obligations.RetResult := by
  unfold Obligations.RetResult
  intro s
  refine ⟨⟨rfl, _, _, _, rfl, rfl, rfl, s.pop16_setPC_charge_eq 4, fun x => ?frame⟩,
    fun hwf hhigh hlow abs t u hcall hret => ?undo⟩
  case frame => exact exec_memByte_of_not_written (i := .ret) rfl (by simp [dataAccesses])
  case undo =>
    rcases hcall with hcall | hcall
    all_goals exact ret_after_call hwf hhigh hlow rfl hcall hret

end Sys2Proof.Machine
end

section
/-! SUPPORT. The effects of the system instructions (43_system.md R260 to R266): trap entry and return as next states,
that the return undoes the entry where the frame is in RAM, and the step of an opcode that does nothing. -/

namespace Sys2Proof.Machine

/-! ## Trap entry and return (43_system.md R264, R265; 60_exceptions.md R292, R295) -/

theorem State.enterTrap_charge_eq (s : State) (vector ret : Addr) (n : Nat) :
    (s.enterTrap vector ret).charge n = s.afterAccess
      { s.cpu with sp := s.cpu.sp - 3, pc := vector, ie := false, ies := false, halted := false } n
      (((s.bus.write (s.cpu.sp - 1) (highByte ret)).write (s.cpu.sp - 2) (lowByte ret)).write
        (s.cpu.sp - 3) (s.cpu.f &&& 0x0F))
      [.write (s.cpu.sp - 1) (highByte ret), .write (s.cpu.sp - 2) (lowByte ret),
        .write (s.cpu.sp - 3) (s.cpu.f &&& 0x0F)] := by
  rw [State.enterTrap_eq]
  rfl

theorem State.returnFromTrap_charge_eq (s : State) (n : Nat) :
    s.returnFromTrap.charge n = s.afterAccess
      { s.cpu with
        f := s.bus.answer s.cpu.sp &&& 0x0F,
        pc := word16 (((s.bus.afterRead s.cpu.sp).afterRead (s.cpu.sp + 1)).answer (s.cpu.sp + 2))
          ((s.bus.afterRead s.cpu.sp).answer (s.cpu.sp + 1)),
        sp := s.cpu.sp + 3, ie := true } n
      (((s.bus.afterRead s.cpu.sp).afterRead (s.cpu.sp + 1)).afterRead (s.cpu.sp + 2))
      [.read s.cpu.sp (s.bus.answer s.cpu.sp),
       .read (s.cpu.sp + 1) ((s.bus.afterRead s.cpu.sp).answer (s.cpu.sp + 1)),
       .read (s.cpu.sp + 2) (((s.bus.afterRead s.cpu.sp).afterRead (s.cpu.sp + 1)).answer (s.cpu.sp + 2))] := by
  rw [State.returnFromTrap_eq]
  rfl

/-- Three bytes written to RAM at different addresses are answered in the opposite order. -/
theorem Bus.answers_write_write_write {b : Bus} {a c d : Addr} (hwf : b.mem.wf) (ha : b.kindAt a = .ram)
    (hc : b.kindAt c = .ram) (hd : b.kindAt d = .ram) (hca : c ≠ a) (hda : d ≠ a) (hdc : d ≠ c) (v w x : Byte) :
    (((b.write a v).write c w).write d x).answer d = x ∧
    ((((b.write a v).write c w).write d x).afterRead d).answer c = w ∧
    (((((b.write a v).write c w).write d x).afterRead d).afterRead c).answer a = v := by
  obtain ⟨hfirst, hsecond⟩ :=
    Bus.answers_write_write (b.write_wf a v hwf) (a := c) (c := d) (by simpa) (by simpa) hdc w x
  refine ⟨hfirst, hsecond, ?_⟩
  rw [Bus.answer_afterRead (by simp [ha]), Bus.answer_afterRead (by simp [ha]),
    Bus.answer_write_other (by simp [ha]) hda, Bus.answer_write_other (by simp [ha]) hca]
  exact Bus.answer_write_same hwf ha v

/-- With RAM at the three bytes of the frame, the return from a trap gives back what its entry saved; the control bits
stay as the entry left them, but for IE, which is set whatever it was (60_exceptions.md R295). -/
theorem State.returnFromTrap_enterTrap {s : State} (hwf : s.bus.mem.wf)
    (hram : ∀ k : Addr, k = 1 ∨ k = 2 ∨ k = 3 → s.bus.kindAt (s.cpu.sp - k) = .ram) (vector ret : Addr) (n : Nat) :
    ((s.enterTrap vector ret).charge n).returnFromTrap.cpu =
      { s.cpu with
        pc := ret, f := s.cpu.f &&& 0x0F, ie := true, ies := false, halted := false,
        cyc := s.cpu.cyc + BitVec.ofNat 64 n } := by
  have hpcLow : s.cpu.sp - 3 + 1 = s.cpu.sp - 2 := by bv_omega
  have hpcHigh : s.cpu.sp - 3 + 2 = s.cpu.sp - 1 := by bv_omega
  have hback : s.cpu.sp - 3 + 3 = s.cpu.sp := by bv_omega
  have hmask : maskFlags s.flags = s.cpu.f &&& 0x0F := maskFlags_idem _
  obtain ⟨hflags, hlow, hhigh⟩ := Bus.answers_write_write_write hwf (hram 1 (by decide)) (hram 2 (by decide))
    (hram 3 (by decide)) (by bv_omega) (by bv_omega) (by bv_omega) (highByte ret) (lowByte ret) s.flags
  rw [State.returnFromTrap_eq, State.enterTrap_eq]
  simp only [State.charge, hpcLow, hpcHigh, hback, hflags, hlow, hhigh, hmask, word16_halves]

/-! ## Instructions without an effect (43_system.md R260, R266) -/

/-- NOP and the reserved opcode bytes are each decoded as an instruction that takes its cycles and does nothing else. -/
theorem exists_effectless_of_opcode {op : Byte} (h : op = 0x00 ∨ op = 0x3F ∨ 0xFB ≤ op.toNat) :
    ∃ i : Instr, decode [op] = .ok (i, []) ∧
      ∀ s, exec i s = .next (s.afterQuiet s.cpu (if op = 0x00 then 1 else 2)) := by
  rcases h with rfl | rfl | h
  · exact ⟨.nop, rfl, fun _ => rfl⟩
  · exact ⟨.illegal3F, rfl, fun _ => rfl⟩
  · have hzero : op ≠ 0x00 := by bv_omega
    rw [if_neg hzero]
    rcases decode_reserved_high op h with hdecode | hdecode
    · exact ⟨.illegalFB, hdecode, fun _ => rfl⟩
    · exact ⟨.illegalFC op, hdecode, fun _ => rfl⟩

section
variable {s : State} (hv : s.cpu.variant = ref8Tag) (hh : s.cpu.halted = false) (ha : s.cpu.accepts = false)
include hv hh ha

/-- A step at the opcode byte of a one-byte instruction reads that byte and executes the instruction. -/
theorem step_of_one_byte {i : Instr} {op : Byte} (hop : s.bus.answer s.cpu.pc = op)
    (hdecode : decode [op] = .ok (i, [])) :
    step s = exec i
      { cpu := { s.cpu with pc := s.cpu.pc + 1, ies := false }, bus := s.bus.afterRead s.cpu.pc,
        obs := { kind := some (.exec op), cycles := 0, trace := [.read s.cpu.pc op] } } := by
  subst hop
  have hencode : encode i = [s.bus.answer s.cpu.pc] := by simpa using encode_append_of_decode hdecode
  obtain ⟨hopcode, -⟩ := List.cons.inj hencode
  have hlength : instrLen (s.bus.answer s.cpu.pc) = 1 := by
    rw [← hopcode, ← length_encode (wellFormed_of_decode hdecode), hencode, List.length_singleton]
  rcases s.code_cases with ⟨-, hcode, hbus⟩ | ⟨htwo, -⟩ | ⟨hthree, -⟩
  · simpa using step_of_code hv hh ha hcode hbus hdecode
  · omega
  · omega

end

end Sys2Proof.Machine
end

section
/-! SUPPORT. The claims about the system instructions (43_system.md R260 to R266): SWI is a trap entry, RETI the return
from one, and the others write control bits or nothing. -/

namespace Sys2Proof.Machine

/-- Settles O27: each of the opcodes is one byte and has no effect, so a step at it is its fetch and its cycles. -/
theorem nopIllegalResults : Obligations.NopIllegalResults := by
  unfold Obligations.NopIllegalResults
  intro s
  refine ⟨⟨rfl, rfl⟩, ⟨rfl, rfl⟩, ⟨rfl, rfl⟩, fun op _ => ⟨rfl, rfl⟩, fun hv hh ha op hop hcases => ⟨_, rfl, ?step⟩⟩
  case step =>
    obtain ⟨i, hdecode, hexec⟩ := exists_effectless_of_opcode hcases
    exact (step_of_one_byte hv hh ha hop hdecode).trans (hexec _)

/-- Settles O28: each instruction is the control bits it writes. -/
theorem haltDiEiResults : Obligations.HaltDiEiResults := by
  unfold Obligations.HaltDiEiResults
  intro s
  refine ⟨?halt, ?di, ?ei⟩
  case halt | di | ei => exact ⟨rfl, rfl⟩

/-- Settles O30: the frame of the trap is the writes of the access table, so no other byte changes. -/
theorem swiResult : Obligations.SwiResult := by
  unfold Obligations.SwiResult
  intro s
  refine ⟨rfl, _, rfl, s.enterTrap_charge_eq swiEntry s.cpu.pc 5, fun x hhigh hlow hflags => ?frame⟩
  case frame =>
    exact exec_memByte_of_not_written (i := .swi) rfl (by simpa [dataAccesses] using And.intro hhigh ⟨hlow, hflags⟩)

/-- Settles O31: the access table has no write for RETI, and RETI sets IE where it leaves IRQ and IES. -/
theorem retiResult : Obligations.RetiResult := by
  unfold Obligations.RetiResult
  intro s
  refine ⟨rfl, _, _, _, _, rfl, rfl, rfl, rfl, s.returnFromTrap_charge_eq 5, fun x => ?frame, fun hirq hies => ?accepts⟩
  case frame => exact exec_memByte_of_not_written (i := .reti) rfl (by simp [dataAccesses])
  case accepts =>
    rw [State.returnFromTrap_charge_eq]
    simp [State.afterAccess, Cpu.accepts, hirq, hies]

/-- Settles O32: the return undoes the trap entry of SWI, which saved PC and leaves the registers. -/
theorem retiUndoesSwi : Obligations.RetiUndoesSwi := by
  unfold Obligations.RetiUndoesSwi
  intro s hwf hram
  have hcpu := State.returnFromTrap_enterTrap hwf hram swiEntry s.cpu.pc 5
  exact ⟨_, _, rfl, rfl, (congrArg Cpu.pc hcpu :), (congrArg Cpu.sp hcpu :), (congrArg Cpu.f hcpu :),
    (congrArg Cpu.regs hcpu :), (congrArg Cpu.ie hcpu :)⟩

end Sys2Proof.Machine
end

section
/-! SUPPORT. Exceptions at one step: what trap entry leaves in memory (60_exceptions.md R292), the acknowledge as a next state
(R291), and which of the four kinds of step the interrupt state chooses (R289, R293, R307). -/

namespace Sys2Proof.Machine

/-! ## The trap frame in memory (60_exceptions.md R292) -/

/-- Three bytes written to RAM at different addresses are what memory holds there. -/
theorem Bus.bytes_write_write_write {b : Bus} {a c d : Addr} (hwf : b.mem.wf) (ha : b.kindAt a = .ram)
    (hc : b.kindAt c = .ram) (hd : b.kindAt d = .ram) (hca : c ≠ a) (hda : d ≠ a) (hdc : d ≠ c) (v w x : Byte) :
    (((b.write a v).write c w).write d x).mem.byteAt a.toNat = v ∧
    (((b.write a v).write c w).write d x).mem.byteAt c.toNat = w ∧
    (((b.write a v).write c w).write d x).mem.byteAt d.toNat = x := by
  have hwf₁ : (b.write a v).mem.wf := b.write_wf a v hwf
  have hwf₂ : ((b.write a v).write c w).mem.wf := Bus.write_wf _ c w hwf₁
  refine ⟨?first, ?second, Bus.write_byteAt_same hwf₂ (by simpa) x⟩
  case first =>
    rw [Bus.write_byteAt_other _ _ _ _ hda, Bus.write_byteAt_other _ _ _ _ hca]
    exact Bus.write_byteAt_same hwf ha v
  case second =>
    rw [Bus.write_byteAt_other _ _ _ _ hdc]
    exact Bus.write_byteAt_same hwf₁ (by simpa) w

/-- Where the three bytes are RAM, trap entry leaves the return address above F at the new SP. -/
theorem State.enterTrap_frame {s : State} (hwf : s.bus.mem.wf)
    (hram : ∀ k : Addr, k = 1 ∨ k = 2 ∨ k = 3 → s.bus.kindAt (s.cpu.sp - k) = .ram) (vector ret : Addr) :
    (s.enterTrap vector ret).memByte (s.cpu.sp - 1) = highByte ret ∧
    (s.enterTrap vector ret).memByte (s.cpu.sp - 2) = lowByte ret ∧
    (s.enterTrap vector ret).memByte (s.cpu.sp - 3) = s.flags := by
  rw [State.enterTrap_eq]
  exact Bus.bytes_write_write_write hwf (hram 1 (by decide)) (hram 2 (by decide)) (hram 3 (by decide))
    (by bv_omega) (by bv_omega) (by bv_omega) _ _ _

/-- Trap entry changes no byte of memory outside its frame. -/
theorem State.enterTrap_memByte_other (s : State) (vector ret : Addr) {x : Addr} (hhigh : x ≠ s.cpu.sp - 1)
    (hlow : x ≠ s.cpu.sp - 2) (hflags : x ≠ s.cpu.sp - 3) : (s.enterTrap vector ret).memByte x = s.memByte x :=
  Bus.replay_byteAt_other (s.enterTrap_accesses vector ret).replay
    (by simpa [BusEvent.access] using And.intro hhigh ⟨hlow, hflags⟩)

/-! ## The acknowledge (60_exceptions.md R291) -/

/-- Everything an acknowledge does from the start of a step. -/
theorem State.clearObs_acknowledge_eq (s : State) :
    s.clearObs.acknowledge =
      { cpu :=
          { s.cpu with
            sp := s.cpu.sp - 3, pc := irqEntry, ie := false, ies := false, halted := false, cyc := s.cpu.cyc + 6 },
        bus := ((s.bus.write (s.cpu.sp - 1) (highByte s.cpu.pc)).write (s.cpu.sp - 2) (lowByte s.cpu.pc)).write
          (s.cpu.sp - 3) (s.cpu.f &&& 0x0F),
        obs :=
          { kind := some .irqAck, cycles := 6,
            trace := [.write (s.cpu.sp - 1) (highByte s.cpu.pc), .write (s.cpu.sp - 2) (lowByte s.cpu.pc),
              .write (s.cpu.sp - 3) (s.cpu.f &&& 0x0F)] } } := by
  rw [State.acknowledge, State.enterTrap_charge_eq]
  rfl

/-! ## Acceptance and the kind of the step (60_exceptions.md R289, R307) -/

theorem Cpu.accepts_iff (c : Cpu) : c.accepts = true ↔ c.irq = true ∧ c.ie = true ∧ c.ies = false := by
  simp [Cpu.accepts, and_assoc]

theorem Cpu.accepts_of_irq {c : Cpu} (h : c.irq = false) : c.accepts = false := by
  simp [Cpu.accepts, h]

/-- The step record names an acknowledge exactly if the interrupt was accepted. -/
theorem StepCase.kind_irqAck_iff {s t : State} (h : StepCase s t) :
    t.obs.kind = some .irqAck ↔ s.cpu.accepts = true := by
  cases h with
  | acknowledge ha => exact ⟨fun _ => ha, fun _ => rfl⟩
  | wake ha => exact ⟨nofun, fun h => absurd (ha.symm.trans h) Bool.false_ne_true⟩
  | idle ha => exact ⟨nofun, fun h => absurd (ha.symm.trans h) Bool.false_ne_true⟩
  | execute ha =>
    rw [State.executed_kind]
    exact ⟨nofun, fun h => absurd (ha.symm.trans h) Bool.false_ne_true⟩

/-- The step record names one of the four kinds, and an executed instruction by the opcode byte it read first. -/
theorem StepCase.kind_cases {s t : State} (h : StepCase s t) :
    t.obs.kind = some .irqAck ∨ t.obs.kind = some .wake ∨ t.obs.kind = some .idle ∨
      ∃ op, t.obs.kind = some (.exec op) ∧ t.obs.trace.head? = some (.read s.cpu.pc op) := by
  cases h with
  | acknowledge => exact .inl rfl
  | wake => exact .inr (.inl rfl)
  | idle => exact .inr (.inr (.inl rfl))
  | execute => exact .inr (.inr (.inr ⟨_, s.executed_kind, s.executed_trace_head⟩))

end Sys2Proof.Machine
end

section
/-! SUPPORT. The turns of a frame over any machine (60_exceptions.md R285, R288): each call that dispatches on the tag is
answered by the selected variant, which the contract keeps in a valid state; so a turn completes, and a frame by induction. -/

namespace Sys2Proof.Machine

section
variable {σ : Type} {V : Variant σ} (hV : V.Contract)
include hV

/-! ## The calls that dispatch on the tag (10_state.md R47; 60_exceptions.md R288, R308) -/

/-- The tag 0x00 is that of the pre-load idle state alone. -/
theorem AnyCpu.eq_preLoad_of_tag {cpu : AnyCpu σ} (h : cpu.tag V = noVariantTag) : cpu = .preLoad := by
  cases cpu with
  | preLoad => rfl
  | ref8 c => exact absurd h ref8MeetsContract.tag_selected
  | console c => exact absurd h hV.tag_selected

/-- A selected CPU takes the interrupt input, and stays in a valid state of its variant. -/
theorem AnyCpu.exists_interrupt {cpu : AnyCpu σ} (hselected : cpu.tag V ≠ noVariantTag) (hvalid : cpu.valid V)
    (level : Bool) : ∃ cpu', cpu.interrupt V level = some cpu' ∧ cpu'.valid V ∧ cpu'.tag V = cpu.tag V := by
  cases cpu with
  | preLoad => exact absurd rfl hselected
  | ref8 c => exact ⟨_, rfl, ref8MeetsContract.interrupt_valid c level hvalid, rfl⟩
  | console c => exact ⟨_, rfl, hV.interrupt_valid c level hvalid, rfl⟩

/-- A selected CPU has a step, of at least 1 cycle, and stays in a valid state of its variant. -/
theorem AnyCpu.exists_step {cpu : AnyCpu σ} (hselected : cpu.tag V ≠ noVariantTag) (hvalid : cpu.valid V) (b : Bus) :
    ∃ r, cpu.step V b = some r ∧ 1 ≤ r.cycles ∧ r.state.valid V ∧ r.state.tag V = cpu.tag V := by
  cases cpu with
  | preLoad => exact absurd rfl hselected
  | ref8 c => exact ⟨_, rfl, ref8MeetsContract.progress c b hvalid, ref8MeetsContract.step_valid c b hvalid, rfl⟩
  | console c => exact ⟨_, rfl, hV.progress c b hvalid, hV.step_valid c b hvalid, rfl⟩

/-! ## Turns and frames (60_exceptions.md R285; 70_reset_and_hazards.md R323) -/

/-- A turn completes: it sets the interrupt input and steps once, and the tick of the others does not touch the CPU. -/
theorem Platform.exists_turn {m : Platform σ} (hselected : m.cpu.tag V ≠ noVariantTag) (hvalid : m.cpu.valid V)
    (t : Turn) : ∃ n m', m.turn V t = some (n, m') ∧ 1 ≤ n ∧ m'.cpu.valid V ∧ m'.cpu.tag V = m.cpu.tag V := by
  obtain ⟨cpu, hinterrupt, hvalid₁, htag₁⟩ := AnyCpu.exists_interrupt hV hselected hvalid (irqLevel t.sources)
  obtain ⟨r, hstep, hcycles, hvalid₂, htag₂⟩ := AnyCpu.exists_step hV (by rwa [htag₁]) hvalid₁ m.bus
  have hturn : m.turn V t = some (r.cycles, { cpu := r.state, bus := t.tick r.cycles r.bus }) := by
    simp only [Platform.turn, hinterrupt, hstep]
  exact ⟨_, _, hturn, hcycles, hvalid₂, htag₂.trans htag₁⟩

/-- Turns complete one after another, and each adds at least 1 cycle to the sum. -/
theorem Platform.exists_turns {m : Platform σ} (hselected : m.cpu.tag V ≠ noVariantTag) (hvalid : m.cpu.valid V)
    (frame : List Turn) :
    ∃ n m', m.turns V frame = some (n, m') ∧ frame.length ≤ n ∧ m'.cpu.valid V ∧ m'.cpu.tag V = m.cpu.tag V := by
  induction frame generalizing m with
  | nil => exact ⟨0, m, rfl, Nat.le_refl 0, hvalid, rfl⟩
  | cons t frame ih =>
    obtain ⟨n, m₁, hturn, hcycles, hvalid₁, htag₁⟩ := Platform.exists_turn hV hselected hvalid t
    obtain ⟨k, m₂, hturns, hlength, hvalid₂, htag₂⟩ := ih (by rwa [htag₁]) hvalid₁
    refine ⟨n + k, m₂, by simp only [Platform.turns, hturn, hturns], ?_, hvalid₂, htag₂.trans htag₁⟩
    rw [List.length_cons]
    omega

end

theorem Platform.runFrame_of_turns {σ : Type} {V : Variant σ} {m : Platform σ} {frame : List Turn}
    {r : Nat × Platform σ} (hselected : m.cpu.tag V ≠ noVariantTag) (h : m.turns V frame = some r) :
    m.runFrame V frame = .ok r := by
  obtain ⟨cpu, bus⟩ := m
  cases cpu with
  | preLoad => exact absurd rfl hselected
  | ref8 c => simp only [Platform.runFrame, h]
  | console c => simp only [Platform.runFrame, h]

theorem Platform.runFrame_preLoad {σ : Type} (V : Variant σ) {m : Platform σ} (h : m.cpu = .preLoad)
    (frame : List Turn) : m.runFrame V frame = .error .refused := by
  simp only [Platform.runFrame, h]

end Sys2Proof.Machine
end

section
/-! SUPPORT. The claims about exceptions (60_exceptions.md R280 to R308): trap entry and acknowledge, the kinds of step and
their cycles, what a step depends on, the interrupt input, and the frame over any variant. -/

namespace Sys2Proof.Machine

/-- Settles O29: the frame is read back at the new SP because SP - 3 + 1 and SP - 3 + 2 are the addresses written. -/
theorem trapEntry : Obligations.TrapEntry := by
  unfold Obligations.TrapEntry
  intro s vector hi lo
  have hentry := s.enterTrap_eq vector (word16 hi lo)
  refine ⟨by rw [hentry, highByte_word16, lowByte_word16]; rfl, ?frame⟩
  case frame =>
    rintro hwf hram t rfl
    have hlowAddr : s.cpu.sp - 3 + 1 = s.cpu.sp - 2 := by bv_omega
    have hhighAddr : s.cpu.sp - 3 + 2 = s.cpu.sp - 1 := by bv_omega
    have hsp : (s.enterTrap vector (word16 hi lo)).cpu.sp = s.cpu.sp - 3 := by rw [hentry]
    obtain ⟨hhigh, hlow, hflags⟩ := State.enterTrap_frame hwf hram vector (word16 hi lo)
    rw [highByte_word16] at hhigh
    rw [lowByte_word16] at hlow
    rw [hsp, hlowAddr, hhighAddr]
    exact ⟨hflags, hlow, hhigh, fun x h₁ h₂ h₃ => s.enterTrap_memByte_other vector _ h₁ h₂ h₃⟩

/-- Settles O36: the step is the acknowledge from a state with nothing observed. -/
theorem acknowledgeStep : Obligations.AcknowledgeStep := by
  unfold Obligations.AcknowledgeStep
  intro s hv ha
  rw [step_acknowledges hv ha, State.clearObs_acknowledge_eq]
  rfl

/-- Settles O38: of the four things a step can do, the acknowledge alone is recorded as one. -/
theorem interruptAcceptedIff : Obligations.InterruptAcceptedIff := by
  unfold Obligations.InterruptAcceptedIff
  intro s hv
  obtain ⟨t, hstep, hcase⟩ := exists_step hv
  exact ⟨t, hstep, hcase.kind_irqAck_iff.trans s.cpu.accepts_iff⟩

/-- Settles O40: a step that answers has REF8 selected, by the inversion of the step. -/
theorem stepAlwaysAnswers : Obligations.StepAlwaysAnswers := by
  unfold Obligations.StepAlwaysAnswers
  refine ⟨fun i s => ⟨_, exec_eq_after i s⟩, fun s => ⟨fun hv => ?safe, fun hv => ?refused⟩⟩
  case safe =>
    obtain ⟨t, hstep, -⟩ := exists_step hv
    exact ⟨t, hstep⟩
  case refused =>
    rintro ⟨t, hstep⟩
    exact hv (step_inversion hstep).1

/-- Settles O43: the cycles and the kind of each of the four things a step can do. -/
theorem stepCycleCount : Obligations.StepCycleCount := by
  unfold Obligations.StepCycleCount
  intro s t hstep
  obtain ⟨-, hcase⟩ := step_inversion hstep
  obtain ⟨hpositive, hbound, hcyc⟩ := hcase.cycles
  exact ⟨hpositive, hbound, hcyc, hcase.kind_cases⟩

/-- Settles O48: fetch and effect are driven by the answers of the bus (`step_determined`). -/
theorem stepDeterminedByAnswers : Obligations.StepDeterminedByAnswers := by
  unfold Obligations.StepDeterminedByAnswers
  intro s₁ s₂ t u hcpu ht hu
  exact step_determined hcpu ht hu

/-- Settles O50: the input writes the latch alone, and each of the four things a step can do keeps it. -/
theorem interruptInputLatch : Obligations.InterruptInputLatch := by
  unfold Obligations.InterruptInputLatch
  refine ⟨fun s a b hv => ?input, fun s t hstep => ?step⟩
  case input =>
    have hset := State.interrupt_ref8 hv
    have hagain : (s.setIRQ a).interrupt b = s.interrupt b := by
      rw [State.interrupt_ref8 (s := s.setIRQ a) hv, hset b]
      rfl
    exact ⟨hset a, s.setIRQ a, hset a, hagain⟩
  case step =>
    obtain ⟨-, hcase⟩ := step_inversion hstep
    exact hcase.fixed

/-- Settles O59: the tag 0x00 is the pre-load idle state, and from every other the turns complete one by one. -/
theorem anyVariantFrame : Obligations.AnyVariantFrame := by
  unfold Obligations.AnyVariantFrame
  intro σ V hV m frame hvalid
  refine ⟨fun hselected => ?completes, fun hnone => ?refused⟩
  case completes =>
    obtain ⟨n, m', hturns, hrest⟩ := Platform.exists_turns hV.toContract hselected hvalid frame
    exact ⟨n, m', Platform.runFrame_of_turns hselected hturns, hrest⟩
  case refused => exact Platform.runFrame_preLoad V (AnyCpu.eq_preLoad_of_tag hV.toContract hnone) frame

/-- Settles O37: each case is one of the three things a halted step can do. -/
theorem haltedSteps : Obligations.HaltedSteps := by
  unfold Obligations.HaltedSteps
  intro s hv hh
  refine ⟨fun hirq hie hies => ?acknowledge, fun hirq hmasked => ?wake, fun hirq => ?idle⟩
  case acknowledge =>
    have ha : s.cpu.accepts = true := s.cpu.accepts_iff.mpr ⟨hirq, hie, hies⟩
    exact ⟨_, acknowledgeStep s hv ha, rfl, rfl, rfl, rfl, rfl, rfl⟩
  case wake =>
    exact step_wakes hv (hmasked.elim Cpu.accepts_of_ie Cpu.accepts_of_ies) hh hirq
  case idle => exact step_idles hv (Cpu.accepts_of_irq hirq) hh hirq

/-- Settles O39: every call asks first whether a variant is selected. -/
theorem stepNeedsVariant : Obligations.StepNeedsVariant := by
  unfold Obligations.StepNeedsVariant
  refine ⟨fun s level image h => ?machine, fun σ V b level image => ⟨rfl, rfl, rfl, rfl, rfl⟩⟩
  case machine =>
    have hrefusal : s.cpu.refusal = some .preLoadIdle := Cpu.refusal_preLoad h
    simp only [step, State.plan, State.interrupt, State.serialize, State.deserialize, hrefusal, and_self]

end Sys2Proof.Machine
end

section
/-! SUPPORT. The cost model (70_reset_and_hazards.md R335, R336): what each instruction charges, and what is left of a step's
cycles when its bus accesses are taken away. -/

namespace Sys2Proof.Machine

/-! ## The cycles of an instruction -/

theorem modelCycles_branch {i : Instr} {c : Fin 8} {rel : Byte} (h : branchOf i = some (c, rel)) (s : State) :
    modelCycles s i = if cond c s.flags then 3 else 2 := by
  have htransfers : transfers s i = cond c s.flags := by cases i <;> cases h <;> rfl
  have hrest : modelCycles s i = 2 + (transfers s i).toNat := by cases i <;> cases h <;> rfl
  rw [hrest, htransfers]
  cases cond c s.flags <;> rfl

/-- The cycles each rule states are those of the cost model (70_reset_and_hazards.md R335). -/
theorem State.after_cycles_eq_modelCycles (s : State) (i : Instr) : (s.after i).obs.cycles = modelCycles s i := by
  rcases hb : branchOf i with _ | ⟨c, rel⟩
  · cases i <;> cases hb <;> rfl
  · rw [State.after_branch hb, modelCycles_branch hb]
    rfl

/-! ## The operand bytes do not enter the cost (70_reset_and_hazards.md R336) -/

@[simp] theorem transfers_withOperands (s : State) (b1 b2 : Byte) (i : Instr) :
    transfers s (i.withOperands b1 b2) = transfers s i := by
  cases i <;> rfl

@[simp] theorem internalCycles_withOperands (b1 b2 : Byte) (i : Instr) :
    internalCycles (i.withOperands b1 b2) = internalCycles i := by
  cases i <;> rfl

theorem transfers_decodeOp_operands (s : State) (op b1 b2 b1' b2' : Byte) :
    transfers s (decodeOp op b1 b2) = transfers s (decodeOp op b1' b2') := by
  rw [decodeOp_eq_withOperands op b1 b2, decodeOp_eq_withOperands op b1' b2', transfers_withOperands,
    transfers_withOperands]

theorem internalCycles_decodeOp_operands (op b1 b2 b1' b2' : Byte) :
    internalCycles (decodeOp op b1 b2) = internalCycles (decodeOp op b1' b2') := by
  rw [decodeOp_eq_withOperands op b1 b2, decodeOp_eq_withOperands op b1' b2', internalCycles_withOperands,
    internalCycles_withOperands]

/-! ## The cycles of an executed instruction -/

/-- Fetching an instruction changes no flag, so it does not change whether a branch is taken. -/
theorem State.execStart_transfers (s : State) (i : Instr) : transfers s.execStart i = transfers s i :=
  transfers_congr (by rw [State.execStart_cpu]) i

theorem State.length_encode_nextInstr (s : State) : (encode s.nextInstr).length = s.code.length := by
  rw [State.code_length, State.nextInstr, length_encode_decodeOp, State.fetched_op]

/-- The accesses of an executed instruction are one per byte of it and its data accesses (20_memory.md R80, R81). -/
theorem State.executed_trace_length (s : State) :
    s.executed.obs.trace.length = (encode s.nextInstr).length + (dataAccesses s.execStart s.nextInstr).length := by
  obtain ⟨events, hmap, haccesses⟩ := s.executed_accesses
  have hempty : s.clearObs.obs.trace = [] := rfl
  rw [haccesses.trace, hempty, List.nil_append, List.length_append, List.length_mapIdx, ← hmap, List.length_map,
    State.length_encode_nextInstr]

theorem State.executed_cycles (s : State) :
    s.executed.obs.cycles =
      s.executed.obs.trace.length + (transfers s s.nextInstr).toNat + internalCycles s.nextInstr := by
  rw [State.executed_trace_length, ← s.execStart_transfers]
  exact s.execStart.after_cycles_eq_modelCycles s.nextInstr

end Sys2Proof.Machine
end

section
/-! SUPPORT. Runs of the core and the halted state that nothing ends (60_exceptions.md R293; 70_reset_and_hazards.md R324). -/

namespace Sys2Proof.Machine

/-- One step more at the end of a run that has not stopped. -/
theorem core_run_succ {n : Nat} {s t u : State} (hrun : Sys2Proof.core.run n s = .next t) (hstep : step t = .next u) :
    Sys2Proof.core.run (n + 1) s = .next u := by
  induction n generalizing s with
  | zero =>
    have hst : s = t := Host.Outcome.next.inj hrun
    have hcore : Sys2Proof.core.step s = .next u := by rw [hst]; exact hstep
    simp only [Host.Core.run, hcore]
  | succ n ih =>
    simp only [Host.Core.run] at hrun ⊢
    cases hs : Sys2Proof.core.step s with
    | next s' =>
      rw [hs] at hrun
      exact ih hrun
    | fault r => rw [hs] at hrun; cases hrun
    | refused r => rw [hs] at hrun; cases hrun

theorem Cpu.runOver_iff (c : Cpu) : c.runOver = true ↔ c.halted = true ∧ c.ie = false ∧ c.irq = false := by
  simp [Cpu.runOver, and_assoc]

theorem step_of_runOver {s : State} (hv : s.cpu.variant = ref8Tag) (hover : s.cpu.runOver = true) :
    step s = .next s.clearObs.idle := by
  obtain ⟨hhalted, hie, hirq⟩ := s.cpu.runOver_iff.mp hover
  exact step_idles hv (Cpu.accepts_of_ie hie) hhalted hirq

/-- Everything an idle step does: CYC counts its one cycle, and the bus is not used (60_exceptions.md R293). -/
theorem State.clearObs_idle_eq (s : State) :
    s.clearObs.idle =
      { cpu := { s.cpu with cyc := s.cpu.cyc + 1 }, bus := s.bus,
        obs := { kind := some .idle, cycles := 1, trace := [] } } := rfl

end Sys2Proof.Machine
end

section
/-! SUPPORT. The host calls that replace the CPU (70_reset_and_hazards.md R321, R323; 10_state.md R59): what loadRom and load
answer in each case. -/

namespace Sys2Proof.Machine

section
variable {σ : Type} (V : Variant σ) (m : Platform σ)

/-! ## loadRom (70_reset_and_hazards.md R321; log 13) -/

section
variable {select : List Byte → Option Byte} {rom : List Byte} (romBus : Bus)

theorem Platform.loadRom_unnamed (h : select rom = none) : m.loadRom V select rom romBus = (some .invalidRom, m) := by
  simp only [Platform.loadRom, h]

theorem Platform.loadRom_ref8 (h : select rom = some ref8Tag) :
    m.loadRom V select rom romBus = (none, { cpu := .ref8 (Cpu.resetTo ref8Tag), bus := romBus }) := by
  simp only [Platform.loadRom, h, if_true]
  rfl

theorem Platform.loadRom_console (h : select rom = some V.tag) (hv : V.tag ≠ ref8Tag) :
    m.loadRom V select rom romBus = (none, { cpu := .console V.reset, bus := romBus }) := by
  simp only [Platform.loadRom, h, if_neg hv, if_true]

theorem Platform.loadRom_unknown {t : Byte} (h : select rom = some t) (href8 : t ≠ ref8Tag) (hconsole : t ≠ V.tag) :
    m.loadRom V select rom romBus = (some .invalidRom, m) := by
  simp only [Platform.loadRom, h, if_neg href8, if_neg hconsole]

end

/-! ## load (10_state.md R59; 70_reset_and_hazards.md R323; log 17) -/

/-- With the CPU section read as `result` and a CPU made of it by `wrap`, load is whole or changes nothing. -/
theorem Platform.load_atomic {τ : Type} {image : List Byte} {result : Except LoadError τ} {wrap : τ → AnyCpu σ}
    (h : m.cpu.deserialize V image = some (result.map wrap)) (others : Except LoadError Bus) :
    (∀ e, result = .error e → m.load V image others = (some (.load e), m)) ∧
      (∀ c e, result = .ok c → others = .error e → m.load V image others = (some (.load e), m)) ∧
      (∀ c b, result = .ok c → others = .ok b → m.load V image others = (none, { cpu := wrap c, bus := b })) := by
  refine ⟨fun e hresult => ?rejected, fun c e hresult hothers => ?othersFail, fun c b hresult hothers => ?whole⟩
  case rejected => simp only [Platform.load, h, hresult, Except.map]
  case othersFail => simp only [Platform.load, h, hresult, hothers, Except.map]
  case whole => simp only [Platform.load, h, hresult, hothers, Except.map]

theorem Platform.load_preLoad (h : m.cpu = .preLoad) (image : List Byte) (others : Except LoadError Bus) :
    m.load V image others = (some .refused, m) := by
  simp only [Platform.load, h, AnyCpu.deserialize]

end

end Sys2Proof.Machine
end

section
/-! SUPPORT. The claims about reset and hazards (70_reset_and_hazards.md R320 to R336): the cost model, the end of a run, and
the calls that load a ROM or an image. -/

namespace Sys2Proof.Machine

/-- Settles O44: the instructions follow the cost model, and of the four things a step can do only an executed instruction
has a fetch, whose reads are the length of its encoding. -/
theorem costModelHolds : Obligations.CostModelHolds := by
  unfold Obligations.CostModelHolds
  refine ⟨fun i s t hexec => ?instr, fun s t hstep => ?step⟩
  case instr =>
    obtain rfl := exec_eq_next_iff.mp hexec
    exact s.after_cycles_eq_modelCycles i
  case step =>
    obtain ⟨-, hcase⟩ := step_inversion hstep
    cases hcase with
    | acknowledge => rfl
    | wake => exact ⟨rfl, rfl⟩
    | idle => exact ⟨rfl, rfl⟩
    | execute =>
      rw [State.executed_kind]
      intro b1 b2
      rw [transfers_decodeOp_operands s _ b1 b2 s.fetched.b1 s.fetched.b2,
        internalCycles_decodeOp_operands _ b1 b2 s.fetched.b1 s.fetched.b2]
      exact s.executed_cycles

/-- Settles O51, by induction on the number of steps: each further one is idle. -/
theorem runOverStaysIdle : Obligations.RunOverStaysIdle := by
  unfold Obligations.RunOverStaysIdle
  intro n s hv hover
  induction n with
  | zero => exact ⟨s, rfl, rfl, by simp, hover, fun h => absurd h (Nat.lt_irrefl 0)⟩
  | succ n ih =>
    obtain ⟨t, hrun, hbus, hcpu, htover, -⟩ := ih
    have htv : t.cpu.variant = ref8Tag := by rw [hcpu]; exact hv
    have hcyc : t.cpu.cyc + 1 = s.cpu.cyc + BitVec.ofNat 64 (n + 1) := by
      rw [hcpu, BitVec.ofNat_add, BitVec.add_assoc]
      rfl
    refine ⟨t.clearObs.idle, core_run_succ hrun (step_of_runOver htv htover), hbus, ?_, htover, fun _ => rfl⟩
    rw [State.clearObs_idle_eq, hcyc, hcpu]

/-- Settles O57: loadRom decides by the tag the header names, and load by what the two variants read in the image. -/
theorem loadRomEffect : Obligations.LoadRomEffect := by
  unfold Obligations.LoadRomEffect
  intro σ V m htag
  have hv : V.tag ≠ ref8Tag := fun h => absurd htag (by rw [h]; decide)
  refine ⟨fun select rom romBus => ?loadRom,
    fun image others => ⟨fun c hc => ?ref8, fun c hc => ?console, ?preLoad⟩⟩
  case loadRom =>
    exact ⟨m.loadRom_unnamed V romBus, m.loadRom_ref8 V romBus, fun h => m.loadRom_console V romBus h hv,
      fun t => m.loadRom_unknown V romBus⟩
  case ref8 => exact m.load_atomic V (by rw [hc]; rfl) others
  case console => exact m.load_atomic V (by rw [hc]; rfl) others
  case preLoad => exact fun h => m.load_preLoad V h image others

end Sys2Proof.Machine
end
